-- ==== Sys2Proof/Word.lean ====
section
/-! DEFINITION. The two word types of the block (rule R6): 8-bit data and 16-bit addresses.
Addition and subtraction on them are `BitVec`'s own and wrap, which is rule R8's add8, sub8 and add16. -/

namespace Sys2Proof

/-- A data register, the status register or a memory cell: 8 bits (R6). -/
abbrev Byte := BitVec 8

/-- An address or the program counter: 16 bits (R6). -/
abbrev Word := BitVec 16

end Sys2Proof
end

