-- ==== Sys2Proof/Config.lean ====
section
/-! DEFINITION. The closed enumerations of the encoding (rules R60 to R66) and the three parameters the spec
leaves open (rule R6): a model takes those as arguments, so State carries them as plain data. -/

namespace Sys2Proof

/-- The addressing mode, "a closed enum" of twelve values (R63). -/
inductive Mode where
  | accumulator
  | immediate
  | zeroPage
  | zeroPageX
  | zeroPageY
  | absolute
  | absoluteX
  | absoluteY
  | indirectX
  | indirectY
  | relative
  | noneAddressing
  deriving DecidableEq, Repr

/-- The 26 mnemonics of the CORE profile (R2). -/
inductive Mnemonic where
  | adc | and | asl | bcc | bcs | beq | bne | bpl | brk | clc | cmp | cpx | dex
  | inx | jsr | lda | ldx | ldy | rts | sbc | sec | sta | stx | sty | tax | txa
  deriving DecidableEq, Repr

/-- The three instruction formats (R60): opcode alone, opcode and one byte, opcode and two bytes. -/
inductive Format where
  | f1
  | f2
  | f3
  deriving DecidableEq, Repr

/-- The operand bytes that follow an opcode byte (R60, R62), as they stand in memory. -/
inductive Operand where
  | none
  /-- F2: the operand byte. -/
  | byte (b : Byte)
  /-- F3: the operand low byte, at the lower address, then the operand high byte. -/
  | word (l h : Byte)
  deriving DecidableEq, Repr

/-- The open parameter ZP_PTR_WRAP (R97, D11). -/
inductive ZpPtrWrap where
  | linear16
  | zeroPage8
  deriving DecidableEq, Repr

/-- The open parameters of one instance (R6): "every rule holds for every value". -/
structure Params where
  /-- SP_RESET, D5. -/
  spReset : Byte
  /-- PROGRAM_ORIGIN, D6. -/
  programOrigin : Word
  /-- ZP_PTR_WRAP, D11. -/
  zpPtrWrap : ZpPtrWrap
  deriving DecidableEq, Repr

/-- The values the spec's test vectors use (92_eei_decisions.md, Open parameters).
DESIGN CHOICE, unsafe (log 4, 5, 6): State.reset carries these; no statement over all states rests on them. -/
def Params.tested : Params := ⟨0xFF, 0x0600, .linear16⟩

end Sys2Proof
end

