-- ==== Sys2Proof/Syntax.lean ====
section
/-! DEFINITION. The instructions: one constructor for each of the 85 rows of the opcode table (rule R66).
The addressing mode is part of the row. Operand bytes are not fields of `Instr`: an instruction's rule reads them
from memory at `PC` and `PC + 1` while it executes (R86, R90, R160; log 1), and `Code` pairs a row with the
operand bytes that follow it in memory. -/

namespace Sys2Proof

/-- One constructor per row of the opcode table, in byte order (R66). -/
inductive Instr where
  /-- 0x00: `BRK`, R162. -/
  | brk
  /-- 0x06: `ASL $nn`, R123. -/
  | aslZeroPage
  /-- 0x0A: `ASL A`, R123. -/
  | aslAccumulator
  /-- 0x0E: `ASL $hhll`, R123. -/
  | aslAbsolute
  /-- 0x10: `BPL label (byte dd)`, R145. -/
  | bpl
  /-- 0x16: `ASL $nn,X`, R123. -/
  | aslZeroPageX
  /-- 0x18: `CLC`, R150. -/
  | clc
  /-- 0x1E: `ASL $hhll,X`, R123. -/
  | aslAbsoluteX
  /-- 0x20: `JSR $hhll`, R160. -/
  | jsr
  /-- 0x21: `AND ($nn,X)`, R122. -/
  | andIndirectX
  /-- 0x25: `AND $nn`, R122. -/
  | andZeroPage
  /-- 0x29: `AND #$nn`, R122. -/
  | andImmediate
  /-- 0x2D: `AND $hhll`, R122. -/
  | andAbsolute
  /-- 0x31: `AND ($nn),Y`, R122. -/
  | andIndirectY
  /-- 0x35: `AND $nn,X`, R122. -/
  | andZeroPageX
  /-- 0x38: `SEC`, R151. -/
  | sec
  /-- 0x39: `AND $hhll,Y`, R122. -/
  | andAbsoluteY
  /-- 0x3D: `AND $hhll,X`, R122. -/
  | andAbsoluteX
  /-- 0x60: `RTS`, R161. -/
  | rts
  /-- 0x61: `ADC ($nn,X)`, R120. -/
  | adcIndirectX
  /-- 0x65: `ADC $nn`, R120. -/
  | adcZeroPage
  /-- 0x69: `ADC #$nn`, R120. -/
  | adcImmediate
  /-- 0x6D: `ADC $hhll`, R120. -/
  | adcAbsolute
  /-- 0x71: `ADC ($nn),Y`, R120. -/
  | adcIndirectY
  /-- 0x75: `ADC $nn,X`, R120. -/
  | adcZeroPageX
  /-- 0x79: `ADC $hhll,Y`, R120. -/
  | adcAbsoluteY
  /-- 0x7D: `ADC $hhll,X`, R120. -/
  | adcAbsoluteX
  /-- 0x81: `STA ($nn,X)`, R173. -/
  | staIndirectX
  /-- 0x84: `STY $nn`, R175. -/
  | styZeroPage
  /-- 0x85: `STA $nn`, R173. -/
  | staZeroPage
  /-- 0x86: `STX $nn`, R174. -/
  | stxZeroPage
  /-- 0x8A: `TXA`, R155. -/
  | txa
  /-- 0x8C: `STY $hhll`, R175. -/
  | styAbsolute
  /-- 0x8D: `STA $hhll`, R173. -/
  | staAbsolute
  /-- 0x8E: `STX $hhll`, R174. -/
  | stxAbsolute
  /-- 0x90: `BCC label (byte dd)`, R141. -/
  | bcc
  /-- 0x91: `STA ($nn),Y`, R173. -/
  | staIndirectY
  /-- 0x94: `STY $nn,X`, R175. -/
  | styZeroPageX
  /-- 0x95: `STA $nn,X`, R173. -/
  | staZeroPageX
  /-- 0x96: `STX $nn,Y`, R174. -/
  | stxZeroPageY
  /-- 0x99: `STA $hhll,Y`, R173. -/
  | staAbsoluteY
  /-- 0x9D: `STA $hhll,X`, R173. -/
  | staAbsoluteX
  /-- 0xA0: `LDY #$nn`, R172. -/
  | ldyImmediate
  /-- 0xA1: `LDA ($nn,X)`, R170. -/
  | ldaIndirectX
  /-- 0xA2: `LDX #$nn`, R171. -/
  | ldxImmediate
  /-- 0xA4: `LDY $nn`, R172. -/
  | ldyZeroPage
  /-- 0xA5: `LDA $nn`, R170. -/
  | ldaZeroPage
  /-- 0xA6: `LDX $nn`, R171. -/
  | ldxZeroPage
  /-- 0xA9: `LDA #$nn`, R170. -/
  | ldaImmediate
  /-- 0xAA: `TAX`, R154. -/
  | tax
  /-- 0xAC: `LDY $hhll`, R172. -/
  | ldyAbsolute
  /-- 0xAD: `LDA $hhll`, R170. -/
  | ldaAbsolute
  /-- 0xAE: `LDX $hhll`, R171. -/
  | ldxAbsolute
  /-- 0xB0: `BCS label (byte dd)`, R142. -/
  | bcs
  /-- 0xB1: `LDA ($nn),Y`, R170. -/
  | ldaIndirectY
  /-- 0xB4: `LDY $nn,X`, R172. -/
  | ldyZeroPageX
  /-- 0xB5: `LDA $nn,X`, R170. -/
  | ldaZeroPageX
  /-- 0xB6: `LDX $nn,Y`, R171. -/
  | ldxZeroPageY
  /-- 0xB9: `LDA $hhll,Y`, R170. -/
  | ldaAbsoluteY
  /-- 0xBC: `LDY $hhll,X`, R172. -/
  | ldyAbsoluteX
  /-- 0xBD: `LDA $hhll,X`, R170. -/
  | ldaAbsoluteX
  /-- 0xBE: `LDX $hhll,Y`, R171. -/
  | ldxAbsoluteY
  /-- 0xC1: `CMP ($nn,X)`, R124. -/
  | cmpIndirectX
  /-- 0xC5: `CMP $nn`, R124. -/
  | cmpZeroPage
  /-- 0xC9: `CMP #$nn`, R124. -/
  | cmpImmediate
  /-- 0xCA: `DEX`, R152. -/
  | dex
  /-- 0xCD: `CMP $hhll`, R124. -/
  | cmpAbsolute
  /-- 0xD0: `BNE label (byte dd)`, R144. -/
  | bne
  /-- 0xD1: `CMP ($nn),Y`, R124. -/
  | cmpIndirectY
  /-- 0xD5: `CMP $nn,X`, R124. -/
  | cmpZeroPageX
  /-- 0xD9: `CMP $hhll,Y`, R124. -/
  | cmpAbsoluteY
  /-- 0xDD: `CMP $hhll,X`, R124. -/
  | cmpAbsoluteX
  /-- 0xE0: `CPX #$nn`, R125. -/
  | cpxImmediate
  /-- 0xE1: `SBC ($nn,X)`, R121. -/
  | sbcIndirectX
  /-- 0xE4: `CPX $nn`, R125. -/
  | cpxZeroPage
  /-- 0xE5: `SBC $nn`, R121. -/
  | sbcZeroPage
  /-- 0xE8: `INX`, R153. -/
  | inx
  /-- 0xE9: `SBC #$nn`, R121. -/
  | sbcImmediate
  /-- 0xEC: `CPX $hhll`, R125. -/
  | cpxAbsolute
  /-- 0xED: `SBC $hhll`, R121. -/
  | sbcAbsolute
  /-- 0xF0: `BEQ label (byte dd)`, R143. -/
  | beq
  /-- 0xF1: `SBC ($nn),Y`, R121. -/
  | sbcIndirectY
  /-- 0xF5: `SBC $nn,X`, R121. -/
  | sbcZeroPageX
  /-- 0xF9: `SBC $hhll,Y`, R121. -/
  | sbcAbsoluteY
  /-- 0xFD: `SBC $hhll,X`, R121. -/
  | sbcAbsoluteX
  deriving DecidableEq, Repr

/-- An instruction as it stands in memory: its opcode row and its operand bytes (R60). -/
structure Code where
  instr : Instr
  operand : Operand
  deriving DecidableEq, Repr

end Sys2Proof
end

