-- ==== Sys2Proof/Decode.lean ====
section
/-! DEFINITION. The opcode descriptors and table (rules R60 to R69), the lookup (R83), the decoder of any byte
sequence, which rejects by name, and the encoder. The descriptors follow R66 row by row and the lookup table
follows R67 mnemonic by mnemonic, so that their agreement is a fact to prove. -/

namespace Sys2Proof

/-- The opcode descriptor: "the immutable record" of R65. `cycles` is data that no rule reads (R241). -/
structure Descriptor where
  code : Byte
  mnemonic : Mnemonic
  length : Nat
  cycles : Nat
  mode : Mode
  deriving DecidableEq, Repr

/-- R66, row by row: byte, mnemonic, length, nominal cycles, mode. -/
def descriptor : Instr → Descriptor
  | .brk => ⟨0x00, .brk, 1, 7, .noneAddressing⟩
  | .aslZeroPage => ⟨0x06, .asl, 2, 5, .zeroPage⟩
  | .aslAccumulator => ⟨0x0A, .asl, 1, 2, .accumulator⟩
  | .aslAbsolute => ⟨0x0E, .asl, 3, 6, .absolute⟩
  | .bpl => ⟨0x10, .bpl, 2, 2, .relative⟩
  | .aslZeroPageX => ⟨0x16, .asl, 2, 6, .zeroPageX⟩
  | .clc => ⟨0x18, .clc, 1, 2, .noneAddressing⟩
  | .aslAbsoluteX => ⟨0x1E, .asl, 3, 7, .absoluteX⟩
  | .jsr => ⟨0x20, .jsr, 3, 6, .absolute⟩
  | .andIndirectX => ⟨0x21, .and, 2, 6, .indirectX⟩
  | .andZeroPage => ⟨0x25, .and, 2, 3, .zeroPage⟩
  | .andImmediate => ⟨0x29, .and, 2, 2, .immediate⟩
  | .andAbsolute => ⟨0x2D, .and, 3, 4, .absolute⟩
  | .andIndirectY => ⟨0x31, .and, 2, 5, .indirectY⟩
  | .andZeroPageX => ⟨0x35, .and, 2, 4, .zeroPageX⟩
  | .sec => ⟨0x38, .sec, 1, 2, .noneAddressing⟩
  | .andAbsoluteY => ⟨0x39, .and, 3, 4, .absoluteY⟩
  | .andAbsoluteX => ⟨0x3D, .and, 3, 4, .absoluteX⟩
  | .rts => ⟨0x60, .rts, 1, 6, .noneAddressing⟩
  | .adcIndirectX => ⟨0x61, .adc, 2, 6, .indirectX⟩
  | .adcZeroPage => ⟨0x65, .adc, 2, 3, .zeroPage⟩
  | .adcImmediate => ⟨0x69, .adc, 2, 2, .immediate⟩
  | .adcAbsolute => ⟨0x6D, .adc, 3, 4, .absolute⟩
  | .adcIndirectY => ⟨0x71, .adc, 2, 5, .indirectY⟩
  | .adcZeroPageX => ⟨0x75, .adc, 2, 4, .zeroPageX⟩
  | .adcAbsoluteY => ⟨0x79, .adc, 3, 4, .absoluteY⟩
  | .adcAbsoluteX => ⟨0x7D, .adc, 3, 4, .absoluteX⟩
  | .staIndirectX => ⟨0x81, .sta, 2, 6, .indirectX⟩
  | .styZeroPage => ⟨0x84, .sty, 2, 3, .zeroPage⟩
  | .staZeroPage => ⟨0x85, .sta, 2, 3, .zeroPage⟩
  | .stxZeroPage => ⟨0x86, .stx, 2, 3, .zeroPage⟩
  | .txa => ⟨0x8A, .txa, 1, 2, .noneAddressing⟩
  | .styAbsolute => ⟨0x8C, .sty, 3, 4, .absolute⟩
  | .staAbsolute => ⟨0x8D, .sta, 3, 4, .absolute⟩
  | .stxAbsolute => ⟨0x8E, .stx, 3, 4, .absolute⟩
  | .bcc => ⟨0x90, .bcc, 2, 2, .relative⟩
  | .staIndirectY => ⟨0x91, .sta, 2, 6, .indirectY⟩
  | .styZeroPageX => ⟨0x94, .sty, 2, 4, .zeroPageX⟩
  | .staZeroPageX => ⟨0x95, .sta, 2, 4, .zeroPageX⟩
  | .stxZeroPageY => ⟨0x96, .stx, 2, 4, .zeroPageY⟩
  | .staAbsoluteY => ⟨0x99, .sta, 3, 5, .absoluteY⟩
  | .staAbsoluteX => ⟨0x9D, .sta, 3, 5, .absoluteX⟩
  | .ldyImmediate => ⟨0xA0, .ldy, 2, 2, .immediate⟩
  | .ldaIndirectX => ⟨0xA1, .lda, 2, 6, .indirectX⟩
  | .ldxImmediate => ⟨0xA2, .ldx, 2, 2, .immediate⟩
  | .ldyZeroPage => ⟨0xA4, .ldy, 2, 3, .zeroPage⟩
  | .ldaZeroPage => ⟨0xA5, .lda, 2, 3, .zeroPage⟩
  | .ldxZeroPage => ⟨0xA6, .ldx, 2, 3, .zeroPage⟩
  | .ldaImmediate => ⟨0xA9, .lda, 2, 2, .immediate⟩
  | .tax => ⟨0xAA, .tax, 1, 2, .noneAddressing⟩
  | .ldyAbsolute => ⟨0xAC, .ldy, 3, 4, .absolute⟩
  | .ldaAbsolute => ⟨0xAD, .lda, 3, 4, .absolute⟩
  | .ldxAbsolute => ⟨0xAE, .ldx, 3, 4, .absolute⟩
  | .bcs => ⟨0xB0, .bcs, 2, 2, .relative⟩
  | .ldaIndirectY => ⟨0xB1, .lda, 2, 5, .indirectY⟩
  | .ldyZeroPageX => ⟨0xB4, .ldy, 2, 4, .zeroPageX⟩
  | .ldaZeroPageX => ⟨0xB5, .lda, 2, 4, .zeroPageX⟩
  | .ldxZeroPageY => ⟨0xB6, .ldx, 2, 4, .zeroPageY⟩
  | .ldaAbsoluteY => ⟨0xB9, .lda, 3, 4, .absoluteY⟩
  | .ldyAbsoluteX => ⟨0xBC, .ldy, 3, 4, .absoluteX⟩
  | .ldaAbsoluteX => ⟨0xBD, .lda, 3, 4, .absoluteX⟩
  | .ldxAbsoluteY => ⟨0xBE, .ldx, 3, 4, .absoluteY⟩
  | .cmpIndirectX => ⟨0xC1, .cmp, 2, 6, .indirectX⟩
  | .cmpZeroPage => ⟨0xC5, .cmp, 2, 3, .zeroPage⟩
  | .cmpImmediate => ⟨0xC9, .cmp, 2, 2, .immediate⟩
  | .dex => ⟨0xCA, .dex, 1, 2, .noneAddressing⟩
  | .cmpAbsolute => ⟨0xCD, .cmp, 3, 4, .absolute⟩
  | .bne => ⟨0xD0, .bne, 2, 2, .relative⟩
  | .cmpIndirectY => ⟨0xD1, .cmp, 2, 5, .indirectY⟩
  | .cmpZeroPageX => ⟨0xD5, .cmp, 2, 4, .zeroPageX⟩
  | .cmpAbsoluteY => ⟨0xD9, .cmp, 3, 4, .absoluteY⟩
  | .cmpAbsoluteX => ⟨0xDD, .cmp, 3, 4, .absoluteX⟩
  | .cpxImmediate => ⟨0xE0, .cpx, 2, 2, .immediate⟩
  | .sbcIndirectX => ⟨0xE1, .sbc, 2, 6, .indirectX⟩
  | .cpxZeroPage => ⟨0xE4, .cpx, 2, 3, .zeroPage⟩
  | .sbcZeroPage => ⟨0xE5, .sbc, 2, 3, .zeroPage⟩
  | .inx => ⟨0xE8, .inx, 1, 2, .noneAddressing⟩
  | .sbcImmediate => ⟨0xE9, .sbc, 2, 2, .immediate⟩
  | .cpxAbsolute => ⟨0xEC, .cpx, 3, 4, .absolute⟩
  | .sbcAbsolute => ⟨0xED, .sbc, 3, 4, .absolute⟩
  | .beq => ⟨0xF0, .beq, 2, 2, .relative⟩
  | .sbcIndirectY => ⟨0xF1, .sbc, 2, 5, .indirectY⟩
  | .sbcZeroPageX => ⟨0xF5, .sbc, 2, 4, .zeroPageX⟩
  | .sbcAbsoluteY => ⟨0xF9, .sbc, 3, 4, .absoluteY⟩
  | .sbcAbsoluteX => ⟨0xFD, .sbc, 3, 4, .absoluteX⟩

/-- The addressing mode of an instruction, "taken from the descriptor" (R86). -/
def Instr.mode (i : Instr) : Mode := (descriptor i).mode

/-- The instruction's length in bytes (R64). -/
def Instr.length (i : Instr) : Nat := (descriptor i).length

/-- The format each mode fixes (R63). -/
def Mode.format : Mode → Format
  | .accumulator => .f1
  | .immediate => .f2
  | .zeroPage => .f2
  | .zeroPageX => .f2
  | .zeroPageY => .f2
  | .absolute => .f3
  | .absoluteX => .f3
  | .absoluteY => .f3
  | .indirectX => .f2
  | .indirectY => .f2
  | .relative => .f2
  | .noneAddressing => .f1

/-- R67, the rows ADC, AND, ASL. -/
def opcodeRowsArith : List (Byte × Instr) :=
  [(0x69, .adcImmediate), (0x65, .adcZeroPage), (0x75, .adcZeroPageX), (0x6D, .adcAbsolute), (0x7D, .adcAbsoluteX), (0x79, .adcAbsoluteY), (0x61, .adcIndirectX), (0x71, .adcIndirectY),
   (0x29, .andImmediate), (0x25, .andZeroPage), (0x35, .andZeroPageX), (0x2D, .andAbsolute), (0x3D, .andAbsoluteX), (0x39, .andAbsoluteY), (0x21, .andIndirectX), (0x31, .andIndirectY),
   (0x06, .aslZeroPage), (0x16, .aslZeroPageX), (0x0E, .aslAbsolute), (0x1E, .aslAbsoluteX), (0x0A, .aslAccumulator)]

/-- R67, the rows BCC, BCS, BEQ, BNE, BPL, BRK, CLC. -/
def opcodeRowsBranch : List (Byte × Instr) :=
  [(0x90, .bcc),
   (0xB0, .bcs),
   (0xF0, .beq),
   (0xD0, .bne),
   (0x10, .bpl),
   (0x00, .brk),
   (0x18, .clc)]

/-- R67, the rows CMP, CPX, DEX, INX, JSR. -/
def opcodeRowsCompare : List (Byte × Instr) :=
  [(0xC9, .cmpImmediate), (0xC5, .cmpZeroPage), (0xD5, .cmpZeroPageX), (0xCD, .cmpAbsolute), (0xDD, .cmpAbsoluteX), (0xD9, .cmpAbsoluteY), (0xC1, .cmpIndirectX), (0xD1, .cmpIndirectY),
   (0xE0, .cpxImmediate), (0xE4, .cpxZeroPage), (0xEC, .cpxAbsolute),
   (0xCA, .dex),
   (0xE8, .inx),
   (0x20, .jsr)]

/-- R67, the rows LDA, LDX, LDY, RTS. -/
def opcodeRowsLoad : List (Byte × Instr) :=
  [(0xA9, .ldaImmediate), (0xA5, .ldaZeroPage), (0xB5, .ldaZeroPageX), (0xAD, .ldaAbsolute), (0xBD, .ldaAbsoluteX), (0xB9, .ldaAbsoluteY), (0xA1, .ldaIndirectX), (0xB1, .ldaIndirectY),
   (0xA2, .ldxImmediate), (0xA6, .ldxZeroPage), (0xB6, .ldxZeroPageY), (0xAE, .ldxAbsolute), (0xBE, .ldxAbsoluteY),
   (0xA0, .ldyImmediate), (0xA4, .ldyZeroPage), (0xB4, .ldyZeroPageX), (0xAC, .ldyAbsolute), (0xBC, .ldyAbsoluteX),
   (0x60, .rts)]

/-- R67, the rows SBC, SEC, STA, STX, STY, TAX, TXA. -/
def opcodeRowsRest : List (Byte × Instr) :=
  [(0xE9, .sbcImmediate), (0xE5, .sbcZeroPage), (0xF5, .sbcZeroPageX), (0xED, .sbcAbsolute), (0xFD, .sbcAbsoluteX), (0xF9, .sbcAbsoluteY), (0xE1, .sbcIndirectX), (0xF1, .sbcIndirectY),
   (0x38, .sec),
   (0x85, .staZeroPage), (0x95, .staZeroPageX), (0x8D, .staAbsolute), (0x9D, .staAbsoluteX), (0x99, .staAbsoluteY), (0x81, .staIndirectX), (0x91, .staIndirectY),
   (0x86, .stxZeroPage), (0x96, .stxZeroPageY), (0x8E, .stxAbsolute),
   (0x84, .styZeroPage), (0x94, .styZeroPageX), (0x8C, .styAbsolute),
   (0xAA, .tax),
   (0x8A, .txa)]

/-- The opcode table keyed by opcode byte (R66, R67): 85 entries, constant (R31). -/
def opcodeTable : List (Byte × Instr) :=
  opcodeRowsArith ++ opcodeRowsBranch ++ opcodeRowsCompare ++ opcodeRowsLoad ++ opcodeRowsRest

/-- "Lookup is by exact byte match" (R61, R83): the instruction whose code is `op`, or none. -/
def lookup (op : Byte) : Option Instr :=
  (opcodeTable.find? (fun row => row.1 == op)).map (fun row => row.2)

/-- Why a byte sequence is not an instruction. -/
inductive DecodeError where
  /-- There is no opcode byte. -/
  | noOpcode
  /-- R68: the opcode byte is not in the table; it is carried. -/
  | unsupportedOpcode (op : Byte)
  /-- The opcode is known but operand bytes of its format are missing. -/
  | truncated (i : Instr)
  deriving DecidableEq, Repr

/-- The operand bytes of a format at the front of `bytes`, and the bytes after them (R60). -/
def takeOperand : Format → List Byte → Option (Operand × List Byte)
  | .f1, bytes => some (.none, bytes)
  | .f2, b :: bytes => some (.byte b, bytes)
  | .f2, [] => none
  | .f3, l :: h :: bytes => some (.word l h, bytes)
  | .f3, [_] => none
  | .f3, [] => none

/-- Decode the instruction at the front of a byte sequence; the answer carries the bytes after it (R60, R64). -/
def decode : List Byte → Except DecodeError (Code × List Byte)
  | [] => .error .noOpcode
  | op :: bytes =>
    match lookup op with
    | none => .error (.unsupportedOpcode op)
    | some i =>
      match takeOperand i.mode.format bytes with
      | none => .error (.truncated i)
      | some (operand, rest) => .ok (⟨i, operand⟩, rest)

/-- The operand's bytes in memory order: low byte first (R60). -/
def Operand.bytes : Operand → List Byte
  | .none => []
  | .byte b => [b]
  | .word l h => [l, h]

/-- The bytes of an instruction, opcode byte first (R60, R66). -/
def encode (c : Code) : List Byte := (descriptor c.instr).code :: c.operand.bytes

/-- Byte `k` of a table word: bit 0 is the least significant bit of the first byte. -/
def tableByte (w k : Nat) : Byte := BitVec.ofNat 8 (w / 256 ^ k)

/-- The bytes a table word of `nbits` bits stands for, filled up with zero bytes to the longest instruction (three bytes, R60). -/
def tableBytes (nbits w : Nat) : List Byte :=
  let v := w % 2 ^ nbits
  [tableByte v 0, tableByte v 1, tableByte v 2]

/-- The instruction the decoder reads from a table word. -/
def decodeTableWord (nbits w : Nat) : Option Instr :=
  match decode (tableBytes nbits w) with
  | .ok (c, _) => some c.instr
  | .error _ => none

end Sys2Proof
end

