-- ==== Sys2Proof/Machine/State.lean ====
section
/-! DEFINITION. The state of one instance as plain data: the register file (R20 to R28), memory (R29), the run state (R30),
the open parameters (R6), and what the host is going to do (R210 to R214), which is the model's own. -/

namespace Sys2Proof.Machine

/-- The 65,536 cells (R29, R40) as a list of address and byte: addresses strictly rising, no cell that is 0x00.
An address that is not listed reads as 0x00, the content `new()` gives every cell (R33; log 16). -/
abbrev Memory := List Host.Cell

/-- The two fatal errors, each with its info (R200, R201, R202). -/
inductive FatalError where
  /-- R201, cause code 0: the offending byte. -/
  | unsupportedOpcode (op : Byte)
  /-- R202, cause code 1: the mode the resolver cannot serve. -/
  | invalidAddressingMode (m : Mode)
  deriving DecidableEq, Repr

/-- The run state RS (R30). -/
inductive RunState where
  | stopped
  | running
  | faulted (e : FatalError)
  deriving DecidableEq, Repr

/-- The six registers, as the host names them when it reads one (R20, R210). -/
inductive Reg where
  | pc
  | a
  | x
  | y
  | sp
  | p
  deriving DecidableEq, Repr

/-- A host register write: the register and a value of its width (R214). -/
inductive RegWrite where
  | pc (v : Word)
  | a (v : Byte)
  | x (v : Byte)
  | y (v : Byte)
  | sp (v : Byte)
  | p (v : Byte)
  deriving DecidableEq, Repr

/-- The host actions that R210 allows in the host window as well as while Stopped. -/
inductive HostAction where
  | load (bytes : List Byte)
  | reset
  | memRead (addr : Word)
  | memWrite (addr : Word) (v : Byte)
  | memReadU16 (addr : Word)
  | memWriteU16 (addr w : Word)
  | readReg (r : Reg)
  | writeReg (w : RegWrite)
  deriving DecidableEq, Repr

/-- What the hook returns (R212, R213). -/
inductive Verdict where
  | continue
  | halt
  deriving DecidableEq, Repr

/-- One host window: "any finite sequence of the actions", then the verdict (R212). -/
structure Window where
  actions : List HostAction
  verdict : Verdict
  deriving DecidableEq, Repr

/-- What the host may call while no run is in progress (R210). A hook is given by the windows it will open, in order;
when they are used up the windows are empty (log 2). `new()` makes another instance and is `State.new`.
During a run only a register read is allowed, which changes nothing (log 3). -/
inductive HostCall where
  | act (a : HostAction)
  | runWithCallback (hook : List Window)
  | loadAndRun (bytes : List Byte)
  deriving DecidableEq, Repr

/-- The whole state of one instance and of what the host is going to do with it. -/
structure State where
  /-- R24: within `exec`, the address of the first operand byte. -/
  pc : Word
  /-- R21. -/
  a : Byte
  /-- R22. -/
  x : Byte
  /-- R22. -/
  y : Byte
  /-- R23: offset into the stack page. -/
  sp : Byte
  /-- R25: bit 0 C, bit 1 Z, bit 6 V, bit 7 N; bits 5 to 2 are stored and unused (R27). -/
  p : Byte
  /-- R29. -/
  mem : Memory
  /-- R30. -/
  rs : RunState
  /-- The model's own: the windows the hook of the present run will open (R81, R212; log 2). -/
  hook : List Window
  /-- The model's own: the calls the host will make while no run is in progress (R210; log 3). -/
  calls : List HostCall
  /-- The open parameters of this instance (R6); no step changes them. -/
  params : Params
  deriving DecidableEq, Repr

/-- The machine's faults: none. The two fatal errors of the spec leave a state that the spec gives whole
(R200: RS = Faulted, PC advanced), so they are next states and not faults of the model (log 7). -/
inductive Fault where
  deriving DecidableEq, Repr

/-- Why the model gives an instruction no meaning. -/
inductive Refusal where
  /-- Raised by `exec` for an instruction that has no meaning yet; safe. No arm raises it. -/
  | notModelled (mnemonic : String)
  deriving DecidableEq, Repr

/-- The three outcomes of an instruction or a step. -/
abbrev Result := Host.Outcome State Fault Refusal

/-- `new()`: "fresh engine, registers zeroed, memory zeroed", RS = Stopped (R33, D25). -/
def State.new (c : Params) : State where
  pc := 0
  a := 0
  x := 0
  y := 0
  sp := 0
  p := 0
  mem := []
  rs := .stopped
  hook := []
  calls := []
  params := c

/-- An instance with the parameters `c` right after `new()` and `reset()` (R33, R34): the vector of zeroed memory is 0x0000
(V-RS-1), SP is SP_RESET and RS stays Stopped. -/
def State.resetWith (c : Params) : State := { State.new c with sp := c.spReset }

/-- The machine right after reset, with the parameter values of the spec's test vectors
(DESIGN CHOICE, unsafe, log 4, 5, 6). -/
def State.reset : State := State.resetWith Params.tested

end Sys2Proof.Machine
end

