-- ==== Sys2Proof/Machine/Ops.lean ====
section
/-! DEFINITION. The shared operations: byte and word helpers (R7, R8), memory (R40 to R44), register writes, the stack
pointer manager (R105 to R107), fetch (R82), the pc advance (R85) and raising an error (R200). -/

namespace Sys2Proof.Machine

/-! ### Bytes and words (R7, R8) -/

/-- `hi * 256 + lo` (R7). -/
def concat16 (hi lo : Byte) : Word := BitVec.ofNat 16 (hi.toNat * 256 + lo.toNat)

/-- `w[7:0]` (R7). -/
def lo8 (w : Word) : Byte := w.extractLsb' 0 8

/-- `w[15:8]` (R7). -/
def hi8 (w : Word) : Byte := w.extractLsb' 8 8

/-- Extend with zero bits (R8). -/
def zext16 (b : Byte) : Word := b.setWidth 16

/-- Extend with copies of bit 7 (R8). -/
def sext16 (b : Byte) : Word := b.signExtend 16

/-! ### Memory -/

/-- The reset vector's address (R231, D3). -/
def resetVector : Word := 0xFFFC

/-- STACK_BASE (R23, D4). -/
def stackBase : Word := 0x0100

/-- The cell at an address: its listed byte, or 0x00 (R33). -/
def Memory.read : Memory → Nat → Byte
  | [], _ => 0
  | (k, v) :: rest, addr => if k = addr then v else Memory.read rest addr

/-- Set one cell, keeping the canonical form: 0x00 is not listed. -/
def Memory.write : Memory → Nat → Byte → Memory
  | [], addr, v => if v = 0 then [] else [(addr, v)]
  | (k, w) :: rest, addr, v =>
    if addr < k then (if v = 0 then (k, w) :: rest else (addr, v) :: (k, w) :: rest)
    else if addr = k then (if v = 0 then rest else (addr, v) :: rest)
    else (k, w) :: Memory.write rest addr v

/-- The canonical form from address `lo` on: rising addresses inside the space, no 0x00 listed. -/
def Memory.wfFrom : Nat → Memory → Bool
  | _, [] => true
  | lo, (k, v) :: rest => decide (lo ≤ k) && decide (k < 65536) && decide (v ≠ 0) && Memory.wfFrom (k + 1) rest

/-- The canonical form of a memory. -/
def Memory.wf (m : Memory) : Bool := Memory.wfFrom 0 m

/-- `MemRead(addr, 1)` (R41). -/
def State.readByte (s : State) (addr : Word) : Byte := Memory.read s.mem addr.toNat

/-- `MemRead(addr, 2)`: low byte at `addr`, high byte at `addr + 1`, wrapping (R42). -/
def State.readWord (s : State) (addr : Word) : Word := concat16 (s.readByte (addr + 1)) (s.readByte addr)

/-- `MemWrite(addr, 1, v)` (R41). -/
def State.writeByte (s : State) (addr : Word) (v : Byte) : State :=
  { s with mem := Memory.write s.mem addr.toNat v }

/-- `MemWrite(addr, 2, w)`: the low byte, then the high byte (R42). -/
def State.writeWord (s : State) (addr w : Word) : State :=
  (s.writeByte addr (lo8 w)).writeByte (addr + 1) (hi8 w)

/-- Write bytes at consecutive addresses, in order. -/
def State.writeBytes : State → Word → List Byte → State
  | s, _, [] => s
  | s, addr, v :: rest => (s.writeByte addr v).writeBytes (addr + 1) rest

/-! ### Register and run state writes (R9) -/

def State.setPc (s : State) (v : Word) : State := { s with pc := v }
def State.setA (s : State) (v : Byte) : State := { s with a := v }
def State.setX (s : State) (v : Byte) : State := { s with x := v }
def State.setY (s : State) (v : Byte) : State := { s with y := v }
def State.setSp (s : State) (v : Byte) : State := { s with sp := v }
def State.setP (s : State) (v : Byte) : State := { s with p := v }
def State.setRs (s : State) (r : RunState) : State := { s with rs := r }
def State.setHook (s : State) (h : List Window) : State := { s with hook := h }
def State.setCalls (s : State) (c : List HostCall) : State := { s with calls := c }

/-! ### Stack pointer manager -/

/-- The address of the stack cell that SP designates (R23). -/
def State.stackAddr (s : State) : Word := stackBase + zext16 s.sp

/-- `Push(v)`: write, then decrement SP (R105). -/
def State.push (s : State) (v : Byte) : State :=
  let t := s.writeByte s.stackAddr v
  t.setSp (t.sp - 1)

/-- `Pop()`: increment SP, then read (R106): the byte and the state after. -/
def State.pop (s : State) : Byte × State :=
  let t := s.setSp (s.sp + 1)
  (t.readByte t.stackAddr, t)

/-! ### The exceptional event -/

/-- `raise e`: the step ends with RS = Faulted; nothing is saved and no other state changes (R200).
There is no return from it (R205). -/
def raise (e : FatalError) (s : State) : State := s.setRs (.faulted e)

/-- The cause code (R201, R202, D24). -/
def FatalError.code : FatalError → Nat
  | .unsupportedOpcode _ => 0
  | .invalidAddressingMode _ => 1

/-! ### Fetch and pc advance -/

/-- Fetch: the opcode byte at PC, and the state with PC advanced by one (R82). -/
def fetch (s : State) : Byte × State := (s.readByte s.pc, s.setPc (s.pc + 1))

/-- Pc advance: by the descriptor length less one iff PC still has the value it had before the handler (R84, R85, D13). -/
def advancePc (pcBefore : Word) (length : Nat) (s : State) : State :=
  if s.pc = pcBefore then s.setPc (s.pc + BitVec.ofNat 16 (length - 1)) else s

/-- The end of a step after its handler: the pc advance, unless the run has ended (R80). -/
def finish (pcBefore : Word) (length : Nat) (s : State) : State :=
  match s.rs with
  | .running => advancePc pcBefore length s
  | .stopped => s
  | .faulted _ => s

end Sys2Proof.Machine
end

