-- ==== Sys2Proof/Machine/Flags.lean ====
section
/-! DEFINITION. The status-flag unit and the ALU helper (R25 to R27, R100 to R104, R108, R125). Every flag write is a write of
one bit of P and leaves the others as they are. -/

namespace Sys2Proof.Machine

/-- The four flags (R25). -/
inductive Flag where
  | c
  | z
  | v
  | n
  deriving DecidableEq, Repr

/-- The flag's bit number in P (R25). -/
def Flag.bit : Flag → Nat
  | .c => 0
  | .z => 1
  | .v => 6
  | .n => 7

/-- The byte with only the flag's bit set. -/
def Flag.mask (f : Flag) : Byte := 1#8 <<< f.bit

/-- The flag's value. -/
def State.flag (s : State) (f : Flag) : Bool := s.p.getLsbD f.bit

/-- Write one flag (R9, R26). -/
def State.setFlag (s : State) (f : Flag) (b : Bool) : State :=
  s.setP (if b then s.p ||| f.mask else s.p &&& ~~~f.mask)

/-- Bits 5 to 2 of P (R27). -/
def State.reservedBits (s : State) : BitVec 4 := s.p.extractLsb' 2 4

/-- `setZN(v)` (R100). -/
def State.setZN (s : State) (v : Byte) : State := (s.setFlag .z (decide (v = 0))).setFlag .n v.msb

/-- The signed reading of an exact result falls outside -128 to 127 (R101, R102). -/
def signedOverflow (exact : Int) : Bool := decide (exact < -128 ∨ exact > 127)

/-- `AddFlags(a, m)`: C on unsigned carry out, V on signed overflow, no carry-in (R101). -/
def State.addFlags (s : State) (a m : Byte) : State :=
  (s.setFlag .c (decide (a.toNat + m.toNat > 255))).setFlag .v (signedOverflow (a.toInt + m.toInt))

/-- `SubFlags(a, m)`: C on a borrow, V on signed overflow (R102). -/
def State.subFlags (s : State) (a m : Byte) : State :=
  (s.setFlag .c (decide (a.toNat < m.toNat))).setFlag .v (signedOverflow (a.toInt - m.toInt))

/-- `CmpFlags(r, m)` (R103). -/
def State.cmpFlags (s : State) (r m : Byte) : State :=
  (s.setFlag .c (decide (r.toNat ≥ m.toNat))).setZN (r - m)

/-- CPX's flags: N is bit 7 of the raw register, not of the difference (R125). -/
def State.cpxFlags (s : State) (x m : Byte) : State :=
  ((s.setFlag .c (decide (x.toNat ≥ m.toNat))).setFlag .z (decide (x = m))).setFlag .n x.msb

/-- `shl1(v)` (R108): the shifted-out bit is `v[7]`. -/
def shl1 (v : Byte) : Byte := v <<< 1

end Sys2Proof.Machine
end

