-- ==== Sys2Proof/Machine/Operands.lean ====
section
/-! DEFINITION. The addressing-mode resolver (R90 to R99). It reads memory and the registers and writes nothing. -/

namespace Sys2Proof.Machine

/-- `ReadPtr(z)`: the little-endian pointer at a zero-page byte; the address of its high byte is the parameter
ZP_PTR_WRAP's (R97). -/
def readPtr (z : Byte) (s : State) : Word :=
  let lo := s.readByte (zext16 z)
  let hi := match s.params.zpPtrWrap with
    | .linear16 => s.readByte (zext16 z + 1)
    | .zeroPage8 => s.readByte (zext16 (z + 1))
  concat16 hi lo

/-- `EA(mode)`, with PC at the first operand byte (R90 to R99). -/
def ea (m : Mode) (s : State) : Except FatalError Word :=
  match m with
  | .immediate => .ok s.pc
  | .zeroPage => .ok (zext16 (s.readByte s.pc))
  | .zeroPageX => .ok (zext16 (s.readByte s.pc + s.x))
  | .zeroPageY => .ok (zext16 (s.readByte s.pc + s.y))
  | .absolute => .ok (s.readWord s.pc)
  | .absoluteX => .ok (s.readWord s.pc + zext16 s.x)
  | .absoluteY => .ok (s.readWord s.pc + zext16 s.y)
  | .indirectX => .ok (readPtr (s.readByte s.pc + s.x) s)
  | .indirectY => .ok (readPtr (s.readByte s.pc) s + zext16 s.y)
  | .relative => .ok s.pc
  | .accumulator => .error (.invalidAddressingMode .accumulator)
  | .noneAddressing => .error (.invalidAddressingMode .noneAddressing)

/-- `ea <- EA(mode)` followed by the rest of a rule; a raise ends the step (R11, R90). -/
def withEa (m : Mode) (s : State) (rest : Word → State) : Result :=
  match ea m s with
  | .ok addr => .next (rest addr)
  | .error e => .next (raise e s)

end Sys2Proof.Machine
end

