-- ==== Sys2Proof/Machine/Arith.lean ====
section
/-! DEFINITION. Arithmetic, logic, shift and compare (41_arith_logic.md, R119 to R125). -/

namespace Sys2Proof.Machine

/-- R120: add without carry-in. -/
def adc (m : Mode) (s : State) : Result := withEa m s fun addr =>
  let v := s.readByte addr
  let r := s.a + v
  ((s.addFlags s.a v).setA r).setZN r

/-- R121: subtract without borrow-in; C is the borrow. -/
def sbc (m : Mode) (s : State) : Result := withEa m s fun addr =>
  let v := s.readByte addr
  let r := s.a - v
  ((s.subFlags s.a v).setA r).setZN r

/-- R122. -/
def andA (m : Mode) (s : State) : Result := withEa m s fun addr =>
  let r := s.a &&& s.readByte addr
  (s.setA r).setZN r

/-- R123, Accumulator mode: the resolver is not called. -/
def aslA (s : State) : State :=
  let v := s.a
  (((s.setFlag .c v.msb).setA (shl1 v))).setZN (shl1 v)

/-- R123, memory modes: written back to the same address, A unchanged. -/
def aslMem (m : Mode) (s : State) : Result := withEa m s fun addr =>
  let v := s.readByte addr
  let r := shl1 v
  ((s.setFlag .c v.msb).writeByte addr r).setZN r

/-- R124. -/
def cmp (m : Mode) (s : State) : Result := withEa m s fun addr => s.cmpFlags s.a (s.readByte addr)

/-- R125. -/
def cpx (m : Mode) (s : State) : Result := withEa m s fun addr => s.cpxFlags s.x (s.readByte addr)

/-- 0x69 `ADC #$nn` (R120). -/
def execAdcImmediate (s : State) : Result := adc (Instr.mode .adcImmediate) s

/-- 0x65 `ADC $nn` (R120). -/
def execAdcZeroPage (s : State) : Result := adc (Instr.mode .adcZeroPage) s

/-- 0x75 `ADC $nn,X` (R120). -/
def execAdcZeroPageX (s : State) : Result := adc (Instr.mode .adcZeroPageX) s

/-- 0x6D `ADC $hhll` (R120). -/
def execAdcAbsolute (s : State) : Result := adc (Instr.mode .adcAbsolute) s

/-- 0x7D `ADC $hhll,X` (R120). -/
def execAdcAbsoluteX (s : State) : Result := adc (Instr.mode .adcAbsoluteX) s

/-- 0x79 `ADC $hhll,Y` (R120). -/
def execAdcAbsoluteY (s : State) : Result := adc (Instr.mode .adcAbsoluteY) s

/-- 0x61 `ADC ($nn,X)` (R120). -/
def execAdcIndirectX (s : State) : Result := adc (Instr.mode .adcIndirectX) s

/-- 0x71 `ADC ($nn),Y` (R120). -/
def execAdcIndirectY (s : State) : Result := adc (Instr.mode .adcIndirectY) s

/-- 0xE9 `SBC #$nn` (R121). -/
def execSbcImmediate (s : State) : Result := sbc (Instr.mode .sbcImmediate) s

/-- 0xE5 `SBC $nn` (R121). -/
def execSbcZeroPage (s : State) : Result := sbc (Instr.mode .sbcZeroPage) s

/-- 0xF5 `SBC $nn,X` (R121). -/
def execSbcZeroPageX (s : State) : Result := sbc (Instr.mode .sbcZeroPageX) s

/-- 0xED `SBC $hhll` (R121). -/
def execSbcAbsolute (s : State) : Result := sbc (Instr.mode .sbcAbsolute) s

/-- 0xFD `SBC $hhll,X` (R121). -/
def execSbcAbsoluteX (s : State) : Result := sbc (Instr.mode .sbcAbsoluteX) s

/-- 0xF9 `SBC $hhll,Y` (R121). -/
def execSbcAbsoluteY (s : State) : Result := sbc (Instr.mode .sbcAbsoluteY) s

/-- 0xE1 `SBC ($nn,X)` (R121). -/
def execSbcIndirectX (s : State) : Result := sbc (Instr.mode .sbcIndirectX) s

/-- 0xF1 `SBC ($nn),Y` (R121). -/
def execSbcIndirectY (s : State) : Result := sbc (Instr.mode .sbcIndirectY) s

/-- 0x29 `AND #$nn` (R122). -/
def execAndImmediate (s : State) : Result := andA (Instr.mode .andImmediate) s

/-- 0x25 `AND $nn` (R122). -/
def execAndZeroPage (s : State) : Result := andA (Instr.mode .andZeroPage) s

/-- 0x35 `AND $nn,X` (R122). -/
def execAndZeroPageX (s : State) : Result := andA (Instr.mode .andZeroPageX) s

/-- 0x2D `AND $hhll` (R122). -/
def execAndAbsolute (s : State) : Result := andA (Instr.mode .andAbsolute) s

/-- 0x3D `AND $hhll,X` (R122). -/
def execAndAbsoluteX (s : State) : Result := andA (Instr.mode .andAbsoluteX) s

/-- 0x39 `AND $hhll,Y` (R122). -/
def execAndAbsoluteY (s : State) : Result := andA (Instr.mode .andAbsoluteY) s

/-- 0x21 `AND ($nn,X)` (R122). -/
def execAndIndirectX (s : State) : Result := andA (Instr.mode .andIndirectX) s

/-- 0x31 `AND ($nn),Y` (R122). -/
def execAndIndirectY (s : State) : Result := andA (Instr.mode .andIndirectY) s

/-- 0x06 `ASL $nn` (R123). -/
def execAslZeroPage (s : State) : Result := aslMem (Instr.mode .aslZeroPage) s

/-- 0x16 `ASL $nn,X` (R123). -/
def execAslZeroPageX (s : State) : Result := aslMem (Instr.mode .aslZeroPageX) s

/-- 0x0E `ASL $hhll` (R123). -/
def execAslAbsolute (s : State) : Result := aslMem (Instr.mode .aslAbsolute) s

/-- 0x1E `ASL $hhll,X` (R123). -/
def execAslAbsoluteX (s : State) : Result := aslMem (Instr.mode .aslAbsoluteX) s

/-- 0x0A `ASL A` (R123). -/
def execAslAccumulator (s : State) : Result := .next (aslA s)

/-- 0xC9 `CMP #$nn` (R124). -/
def execCmpImmediate (s : State) : Result := cmp (Instr.mode .cmpImmediate) s

/-- 0xC5 `CMP $nn` (R124). -/
def execCmpZeroPage (s : State) : Result := cmp (Instr.mode .cmpZeroPage) s

/-- 0xD5 `CMP $nn,X` (R124). -/
def execCmpZeroPageX (s : State) : Result := cmp (Instr.mode .cmpZeroPageX) s

/-- 0xCD `CMP $hhll` (R124). -/
def execCmpAbsolute (s : State) : Result := cmp (Instr.mode .cmpAbsolute) s

/-- 0xDD `CMP $hhll,X` (R124). -/
def execCmpAbsoluteX (s : State) : Result := cmp (Instr.mode .cmpAbsoluteX) s

/-- 0xD9 `CMP $hhll,Y` (R124). -/
def execCmpAbsoluteY (s : State) : Result := cmp (Instr.mode .cmpAbsoluteY) s

/-- 0xC1 `CMP ($nn,X)` (R124). -/
def execCmpIndirectX (s : State) : Result := cmp (Instr.mode .cmpIndirectX) s

/-- 0xD1 `CMP ($nn),Y` (R124). -/
def execCmpIndirectY (s : State) : Result := cmp (Instr.mode .cmpIndirectY) s

/-- 0xE0 `CPX #$nn` (R125). -/
def execCpxImmediate (s : State) : Result := cpx (Instr.mode .cpxImmediate) s

/-- 0xE4 `CPX $nn` (R125). -/
def execCpxZeroPage (s : State) : Result := cpx (Instr.mode .cpxZeroPage) s

/-- 0xEC `CPX $hhll` (R125). -/
def execCpxAbsolute (s : State) : Result := cpx (Instr.mode .cpxAbsolute) s

end Sys2Proof.Machine
end

