-- ==== Sys2Proof/Machine/Branch.lean ====
section
/-! DEFINITION. Conditional branches (42_branch.md, R140 to R145). -/

namespace Sys2Proof.Machine

/-- `Branch(cond)`: if taken, PC plus the sign-extended displacement plus one, in 16 bits; PC is not written otherwise (R140). -/
def branch (m : Mode) (cond : Bool) (s : State) : Result := withEa m s fun addr =>
  let d := s.readByte addr
  if cond then s.setPc (s.pc + (sext16 d + 1)) else s

/-- 0x90 `BCC label (byte dd)` (R141). -/
def execBcc (s : State) : Result := branch (Instr.mode .bcc) (!s.flag .c) s

/-- 0xB0 `BCS label (byte dd)` (R142). -/
def execBcs (s : State) : Result := branch (Instr.mode .bcs) (s.flag .c) s

/-- 0xF0 `BEQ label (byte dd)` (R143). -/
def execBeq (s : State) : Result := branch (Instr.mode .beq) (s.flag .z) s

/-- 0xD0 `BNE label (byte dd)` (R144). -/
def execBne (s : State) : Result := branch (Instr.mode .bne) (!s.flag .z) s

/-- 0x10 `BPL label (byte dd)` (R145). -/
def execBpl (s : State) : Result := branch (Instr.mode .bpl) (!s.flag .n) s

end Sys2Proof.Machine
end

