-- ==== Sys2Proof/Machine/FlagTransfer.lean ====
section
/-! DEFINITION. Flag, increment, decrement and transfer instructions (43_flags_incdec_transfer.md, R150 to R155). -/

namespace Sys2Proof.Machine

/-- 0x18 `CLC` (R150). -/
def execClc (s : State) : Result := .next (s.setFlag .c false)

/-- 0x38 `SEC` (R151). -/
def execSec (s : State) : Result := .next (s.setFlag .c true)

/-- 0xCA `DEX` (R152). -/
def execDex (s : State) : Result := .next ((s.setX (s.x - 1)).setZN (s.x - 1))

/-- 0xE8 `INX` (R153). -/
def execInx (s : State) : Result := .next ((s.setX (s.x + 1)).setZN (s.x + 1))

/-- 0xAA `TAX` (R154). -/
def execTax (s : State) : Result := .next ((s.setX s.a).setZN s.a)

/-- 0x8A `TXA` (R155). -/
def execTxa (s : State) : Result := .next ((s.setA s.x).setZN s.x)

end Sys2Proof.Machine
end

