-- ==== Sys2Proof/Machine/LoadStore.lean ====
section
/-! DEFINITION. Loads and stores (45_load_store.md, R170 to R175). -/

namespace Sys2Proof.Machine

/-- R170. -/
def lda (m : Mode) (s : State) : Result := withEa m s fun addr =>
  let v := s.readByte addr
  (s.setA v).setZN v

/-- R171. -/
def ldx (m : Mode) (s : State) : Result := withEa m s fun addr =>
  let v := s.readByte addr
  (s.setX v).setZN v

/-- R172. -/
def ldy (m : Mode) (s : State) : Result := withEa m s fun addr =>
  let v := s.readByte addr
  (s.setY v).setZN v

/-- R173, R174, R175: store a register's byte; no flag. -/
def store (m : Mode) (v : Byte) (s : State) : Result := withEa m s fun addr => s.writeByte addr v

/-- 0xA9 `LDA #$nn` (R170). -/
def execLdaImmediate (s : State) : Result := lda (Instr.mode .ldaImmediate) s

/-- 0xA5 `LDA $nn` (R170). -/
def execLdaZeroPage (s : State) : Result := lda (Instr.mode .ldaZeroPage) s

/-- 0xB5 `LDA $nn,X` (R170). -/
def execLdaZeroPageX (s : State) : Result := lda (Instr.mode .ldaZeroPageX) s

/-- 0xAD `LDA $hhll` (R170). -/
def execLdaAbsolute (s : State) : Result := lda (Instr.mode .ldaAbsolute) s

/-- 0xBD `LDA $hhll,X` (R170). -/
def execLdaAbsoluteX (s : State) : Result := lda (Instr.mode .ldaAbsoluteX) s

/-- 0xB9 `LDA $hhll,Y` (R170). -/
def execLdaAbsoluteY (s : State) : Result := lda (Instr.mode .ldaAbsoluteY) s

/-- 0xA1 `LDA ($nn,X)` (R170). -/
def execLdaIndirectX (s : State) : Result := lda (Instr.mode .ldaIndirectX) s

/-- 0xB1 `LDA ($nn),Y` (R170). -/
def execLdaIndirectY (s : State) : Result := lda (Instr.mode .ldaIndirectY) s

/-- 0xA2 `LDX #$nn` (R171). -/
def execLdxImmediate (s : State) : Result := ldx (Instr.mode .ldxImmediate) s

/-- 0xA6 `LDX $nn` (R171). -/
def execLdxZeroPage (s : State) : Result := ldx (Instr.mode .ldxZeroPage) s

/-- 0xB6 `LDX $nn,Y` (R171). -/
def execLdxZeroPageY (s : State) : Result := ldx (Instr.mode .ldxZeroPageY) s

/-- 0xAE `LDX $hhll` (R171). -/
def execLdxAbsolute (s : State) : Result := ldx (Instr.mode .ldxAbsolute) s

/-- 0xBE `LDX $hhll,Y` (R171). -/
def execLdxAbsoluteY (s : State) : Result := ldx (Instr.mode .ldxAbsoluteY) s

/-- 0xA0 `LDY #$nn` (R172). -/
def execLdyImmediate (s : State) : Result := ldy (Instr.mode .ldyImmediate) s

/-- 0xA4 `LDY $nn` (R172). -/
def execLdyZeroPage (s : State) : Result := ldy (Instr.mode .ldyZeroPage) s

/-- 0xB4 `LDY $nn,X` (R172). -/
def execLdyZeroPageX (s : State) : Result := ldy (Instr.mode .ldyZeroPageX) s

/-- 0xAC `LDY $hhll` (R172). -/
def execLdyAbsolute (s : State) : Result := ldy (Instr.mode .ldyAbsolute) s

/-- 0xBC `LDY $hhll,X` (R172). -/
def execLdyAbsoluteX (s : State) : Result := ldy (Instr.mode .ldyAbsoluteX) s

/-- 0x85 `STA $nn` (R173). -/
def execStaZeroPage (s : State) : Result := store (Instr.mode .staZeroPage) s.a s

/-- 0x95 `STA $nn,X` (R173). -/
def execStaZeroPageX (s : State) : Result := store (Instr.mode .staZeroPageX) s.a s

/-- 0x8D `STA $hhll` (R173). -/
def execStaAbsolute (s : State) : Result := store (Instr.mode .staAbsolute) s.a s

/-- 0x9D `STA $hhll,X` (R173). -/
def execStaAbsoluteX (s : State) : Result := store (Instr.mode .staAbsoluteX) s.a s

/-- 0x99 `STA $hhll,Y` (R173). -/
def execStaAbsoluteY (s : State) : Result := store (Instr.mode .staAbsoluteY) s.a s

/-- 0x81 `STA ($nn,X)` (R173). -/
def execStaIndirectX (s : State) : Result := store (Instr.mode .staIndirectX) s.a s

/-- 0x91 `STA ($nn),Y` (R173). -/
def execStaIndirectY (s : State) : Result := store (Instr.mode .staIndirectY) s.a s

/-- 0x86 `STX $nn` (R174). -/
def execStxZeroPage (s : State) : Result := store (Instr.mode .stxZeroPage) s.x s

/-- 0x96 `STX $nn,Y` (R174). -/
def execStxZeroPageY (s : State) : Result := store (Instr.mode .stxZeroPageY) s.x s

/-- 0x8E `STX $hhll` (R174). -/
def execStxAbsolute (s : State) : Result := store (Instr.mode .stxAbsolute) s.x s

/-- 0x84 `STY $nn` (R175). -/
def execStyZeroPage (s : State) : Result := store (Instr.mode .styZeroPage) s.y s

/-- 0x94 `STY $nn,X` (R175). -/
def execStyZeroPageX (s : State) : Result := store (Instr.mode .styZeroPageX) s.y s

/-- 0x8C `STY $hhll` (R175). -/
def execStyAbsolute (s : State) : Result := store (Instr.mode .styAbsolute) s.y s

end Sys2Proof.Machine
end

