-- ==== Sys2Proof/Machine/Subroutine.lean ====
section
/-! DEFINITION. Subroutine call, return and halt (44_subroutine_halt.md, R160 to R162). -/

namespace Sys2Proof.Machine

/-- The pushes of JSR: the high byte, then the low byte, of the address of its last byte (R160). -/
def pushReturn (s : State) : State :=
  let ret := s.pc + 1
  (s.push (hi8 ret)).push (lo8 ret)

/-- The pops of RTS: the low byte, then the high byte: the popped address and the state after (R161). -/
def popReturn (s : State) : Word × State :=
  let lo := s.pop
  let hi := lo.2.pop
  (concat16 hi.1 lo.1, hi.2)

/-- 0x20 `JSR $hhll` (R160): the target is read after both pushes (D29). -/
def execJsr (s : State) : Result :=
  let t := pushReturn s
  withEa (Instr.mode .jsr) t fun addr => t.setPc addr

/-- 0x60 `RTS` (R161). -/
def execRts (s : State) : Result :=
  let r := popReturn s
  .next (r.2.setPc (r.1 + 1))

/-- 0x00 `BRK` (R162): the run stops, "no further state change". -/
def execBrk (s : State) : Result := .next (s.setRs .stopped)

end Sys2Proof.Machine
end

