-- ==== Sys2Proof/Machine/Dispatch.lean ====
section
/-! DEFINITION. Execute(op, desc) of rule R86: one arm per row of the opcode table, in byte order. -/

namespace Sys2Proof.Machine

def exec (i : Instr) (s : State) : Host.Outcome State Fault Refusal :=
  match i with
  | .brk => Sys2Proof.Machine.execBrk s
  | .aslZeroPage => Sys2Proof.Machine.execAslZeroPage s
  | .aslAccumulator => Sys2Proof.Machine.execAslAccumulator s
  | .aslAbsolute => Sys2Proof.Machine.execAslAbsolute s
  | .bpl => Sys2Proof.Machine.execBpl s
  | .aslZeroPageX => Sys2Proof.Machine.execAslZeroPageX s
  | .clc => Sys2Proof.Machine.execClc s
  | .aslAbsoluteX => Sys2Proof.Machine.execAslAbsoluteX s
  | .jsr => Sys2Proof.Machine.execJsr s
  | .andIndirectX => Sys2Proof.Machine.execAndIndirectX s
  | .andZeroPage => Sys2Proof.Machine.execAndZeroPage s
  | .andImmediate => Sys2Proof.Machine.execAndImmediate s
  | .andAbsolute => Sys2Proof.Machine.execAndAbsolute s
  | .andIndirectY => Sys2Proof.Machine.execAndIndirectY s
  | .andZeroPageX => Sys2Proof.Machine.execAndZeroPageX s
  | .sec => Sys2Proof.Machine.execSec s
  | .andAbsoluteY => Sys2Proof.Machine.execAndAbsoluteY s
  | .andAbsoluteX => Sys2Proof.Machine.execAndAbsoluteX s
  | .rts => Sys2Proof.Machine.execRts s
  | .adcIndirectX => Sys2Proof.Machine.execAdcIndirectX s
  | .adcZeroPage => Sys2Proof.Machine.execAdcZeroPage s
  | .adcImmediate => Sys2Proof.Machine.execAdcImmediate s
  | .adcAbsolute => Sys2Proof.Machine.execAdcAbsolute s
  | .adcIndirectY => Sys2Proof.Machine.execAdcIndirectY s
  | .adcZeroPageX => Sys2Proof.Machine.execAdcZeroPageX s
  | .adcAbsoluteY => Sys2Proof.Machine.execAdcAbsoluteY s
  | .adcAbsoluteX => Sys2Proof.Machine.execAdcAbsoluteX s
  | .staIndirectX => Sys2Proof.Machine.execStaIndirectX s
  | .styZeroPage => Sys2Proof.Machine.execStyZeroPage s
  | .staZeroPage => Sys2Proof.Machine.execStaZeroPage s
  | .stxZeroPage => Sys2Proof.Machine.execStxZeroPage s
  | .txa => Sys2Proof.Machine.execTxa s
  | .styAbsolute => Sys2Proof.Machine.execStyAbsolute s
  | .staAbsolute => Sys2Proof.Machine.execStaAbsolute s
  | .stxAbsolute => Sys2Proof.Machine.execStxAbsolute s
  | .bcc => Sys2Proof.Machine.execBcc s
  | .staIndirectY => Sys2Proof.Machine.execStaIndirectY s
  | .styZeroPageX => Sys2Proof.Machine.execStyZeroPageX s
  | .staZeroPageX => Sys2Proof.Machine.execStaZeroPageX s
  | .stxZeroPageY => Sys2Proof.Machine.execStxZeroPageY s
  | .staAbsoluteY => Sys2Proof.Machine.execStaAbsoluteY s
  | .staAbsoluteX => Sys2Proof.Machine.execStaAbsoluteX s
  | .ldyImmediate => Sys2Proof.Machine.execLdyImmediate s
  | .ldaIndirectX => Sys2Proof.Machine.execLdaIndirectX s
  | .ldxImmediate => Sys2Proof.Machine.execLdxImmediate s
  | .ldyZeroPage => Sys2Proof.Machine.execLdyZeroPage s
  | .ldaZeroPage => Sys2Proof.Machine.execLdaZeroPage s
  | .ldxZeroPage => Sys2Proof.Machine.execLdxZeroPage s
  | .ldaImmediate => Sys2Proof.Machine.execLdaImmediate s
  | .tax => Sys2Proof.Machine.execTax s
  | .ldyAbsolute => Sys2Proof.Machine.execLdyAbsolute s
  | .ldaAbsolute => Sys2Proof.Machine.execLdaAbsolute s
  | .ldxAbsolute => Sys2Proof.Machine.execLdxAbsolute s
  | .bcs => Sys2Proof.Machine.execBcs s
  | .ldaIndirectY => Sys2Proof.Machine.execLdaIndirectY s
  | .ldyZeroPageX => Sys2Proof.Machine.execLdyZeroPageX s
  | .ldaZeroPageX => Sys2Proof.Machine.execLdaZeroPageX s
  | .ldxZeroPageY => Sys2Proof.Machine.execLdxZeroPageY s
  | .ldaAbsoluteY => Sys2Proof.Machine.execLdaAbsoluteY s
  | .ldyAbsoluteX => Sys2Proof.Machine.execLdyAbsoluteX s
  | .ldaAbsoluteX => Sys2Proof.Machine.execLdaAbsoluteX s
  | .ldxAbsoluteY => Sys2Proof.Machine.execLdxAbsoluteY s
  | .cmpIndirectX => Sys2Proof.Machine.execCmpIndirectX s
  | .cmpZeroPage => Sys2Proof.Machine.execCmpZeroPage s
  | .cmpImmediate => Sys2Proof.Machine.execCmpImmediate s
  | .dex => Sys2Proof.Machine.execDex s
  | .cmpAbsolute => Sys2Proof.Machine.execCmpAbsolute s
  | .bne => Sys2Proof.Machine.execBne s
  | .cmpIndirectY => Sys2Proof.Machine.execCmpIndirectY s
  | .cmpZeroPageX => Sys2Proof.Machine.execCmpZeroPageX s
  | .cmpAbsoluteY => Sys2Proof.Machine.execCmpAbsoluteY s
  | .cmpAbsoluteX => Sys2Proof.Machine.execCmpAbsoluteX s
  | .cpxImmediate => Sys2Proof.Machine.execCpxImmediate s
  | .sbcIndirectX => Sys2Proof.Machine.execSbcIndirectX s
  | .cpxZeroPage => Sys2Proof.Machine.execCpxZeroPage s
  | .sbcZeroPage => Sys2Proof.Machine.execSbcZeroPage s
  | .inx => Sys2Proof.Machine.execInx s
  | .sbcImmediate => Sys2Proof.Machine.execSbcImmediate s
  | .cpxAbsolute => Sys2Proof.Machine.execCpxAbsolute s
  | .sbcAbsolute => Sys2Proof.Machine.execSbcAbsolute s
  | .beq => Sys2Proof.Machine.execBeq s
  | .sbcIndirectY => Sys2Proof.Machine.execSbcIndirectY s
  | .sbcZeroPageX => Sys2Proof.Machine.execSbcZeroPageX s
  | .sbcAbsoluteY => Sys2Proof.Machine.execSbcAbsoluteY s
  | .sbcAbsoluteX => Sys2Proof.Machine.execSbcAbsoluteX s

end Sys2Proof.Machine
end

