-- ==== Sys2Proof/Machine/HostActions.lean ====
section
/-! DEFINITION. The host interface (60_exceptions.md R210 to R216, 70_reset_and_hazards.md R230 to R233): what each host
action does and returns, in which run state it is allowed, and the host window. -/

namespace Sys2Proof.Machine

/-- The reset action (R230): memory and the run state are unchanged. -/
def resetAction (s : State) : State :=
  (((((s.setA 0).setX 0).setY 0).setP 0).setSp s.params.spReset).setPc (s.readWord resetVector)

/-- The program fits between the program origin and the end of the address space (R232). -/
def loadFits (bytes : List Byte) (s : State) : Bool :=
  decide (s.params.programOrigin.toNat + bytes.length ≤ 65536)

/-- The load action (R232): the bytes, then the vector; refused with no state change if it does not fit (D18). -/
def loadAction (bytes : List Byte) (s : State) : State :=
  if loadFits bytes s then
    (s.writeBytes s.params.programOrigin bytes).writeWord resetVector s.params.programOrigin
  else s

/-- A host register write: that register, "no other effect" (R214). -/
def writeRegister (w : RegWrite) (s : State) : State :=
  match w with
  | .pc v => s.setPc v
  | .a v => s.setA v
  | .x v => s.setX v
  | .y v => s.setY v
  | .sp v => s.setSp v
  | .p v => s.setP v

/-- The effect of a host action, in the host window or while Stopped (R210). Reads change nothing. -/
def performAction (act : HostAction) (s : State) : State :=
  match act with
  | .load bytes => loadAction bytes s
  | .reset => resetAction s
  | .memRead _ => s
  | .memWrite addr v => s.writeByte addr v
  | .memReadU16 _ => s
  | .memWriteU16 addr w => s.writeWord addr w
  | .readReg _ => s
  | .writeReg w => writeRegister w s

/-- What a host action returns to the host. -/
inductive Reply where
  | done
  | refused
  | byte (v : Byte)
  | word (v : Word)
  deriving DecidableEq, Repr

/-- A register as the host reads it (R210). -/
def readRegister (r : Reg) (s : State) : Reply :=
  match r with
  | .pc => .word s.pc
  | .a => .byte s.a
  | .x => .byte s.x
  | .y => .byte s.y
  | .sp => .byte s.sp
  | .p => .byte s.p

/-- What an allowed host action returns (R210, R232). -/
def actionReply (act : HostAction) (s : State) : Reply :=
  match act with
  | .load bytes => if loadFits bytes s then .done else .refused
  | .reset => .done
  | .memRead addr => .byte (s.readByte addr)
  | .memWrite _ _ => .done
  | .memReadU16 addr => .word (s.readWord addr)
  | .memWriteU16 _ _ => .done
  | .readReg r => readRegister r s
  | .writeReg _ => .done

/-- The actions that only read; "in Faulted only reads (registers and memory) are allowed" (R210). -/
def isRead : HostAction → Bool
  | .load _ => false
  | .reset => false
  | .memRead _ => true
  | .memWrite _ _ => false
  | .memReadU16 _ => true
  | .memWriteU16 _ _ => false
  | .readReg _ => true
  | .writeReg _ => false

/-- Start a run at the present PC with the given hook (R211). -/
def startRun (hook : List Window) (s : State) : State := (s.setHook hook).setRs .running

/-- The effect of a host call while Stopped (R210, R211). A load_and_run whose load is refused is refused whole (log 8). -/
def performCall (call : HostCall) (s : State) : State :=
  match call with
  | .act a => performAction a s
  | .runWithCallback hook => startRun hook s
  | .loadAndRun bytes => if loadFits bytes s then startRun [] (resetAction (loadAction bytes s)) else s

/-- The effect of a host call in each run state: in Faulted every call but a read is refused with no state change (R205, R210),
and while
a run is in progress only a register read, which changes nothing, is allowed outside the host window. -/
def hostCall (call : HostCall) (s : State) : State :=
  match s.rs with
  | .stopped => performCall call s
  | .running => s
  | .faulted _ => s

/-- The register reads, which R210 allows "always", so also while a run is in progress. -/
def isRegisterRead : HostAction → Bool
  | .load _ => false
  | .reset => false
  | .memRead _ => false
  | .memWrite _ _ => false
  | .memReadU16 _ => false
  | .memWriteU16 _ _ => false
  | .readReg _ => true
  | .writeReg _ => false

/-- What a host call returns at once (a run's own result is `runResult`). -/
def callReply (call : HostCall) (s : State) : Reply :=
  match s.rs, call with
  | .stopped, .act a => actionReply a s
  | .stopped, .runWithCallback _ => .done
  | .stopped, .loadAndRun bytes => if loadFits bytes s then .done else .refused
  | .running, .act a => if isRegisterRead a then actionReply a s else .refused
  | .running, .runWithCallback _ => .refused
  | .running, .loadAndRun _ => .refused
  | .faulted _, .act a => if isRead a then actionReply a s else .refused
  | .faulted _, .runWithCallback _ => .refused
  | .faulted _, .loadAndRun _ => .refused

/-- The result of the run action once it returns (R211, R216). -/
inductive RunResult where
  | halted
  | error (e : FatalError)
  deriving DecidableEq, Repr

/-- `run` returns when RS becomes Stopped or Faulted; none while it has not returned (R211). -/
def runResult (s : State) : Option RunResult :=
  match s.rs with
  | .stopped => some .halted
  | .running => none
  | .faulted e => some (.error e)

/-- One host window: its actions in order, then its verdict (R212, R213). -/
def openWindow (w : Window) (s : State) : State :=
  let t := w.actions.foldl (fun t act => performAction act t) s
  match w.verdict with
  | .continue => t
  | .halt => t.setRs .stopped

/-- `HostWindow()`: the hook's next window; with no hook, or none left, "the window does nothing" (R81; log 2). -/
def hostWindow (s : State) : State :=
  match s.hook with
  | [] => s
  | w :: rest => openWindow w (s.setHook rest)

/-- No run is in progress: the host makes its next call, if it makes one; otherwise every register and cell keeps its value
(R219; log 3). -/
def idle (s : State) : State :=
  match s.calls with
  | [] => s
  | call :: rest => hostCall call (s.setCalls rest)

end Sys2Proof.Machine
end

