-- ==== Sys2Proof/Machine/Cycle.lean ====
section
/-! DEFINITION. The dispatch loop's step (R80 to R86), and placing an instruction where it is fetched. -/

namespace Sys2Proof.Machine

/-- Fetch, decode, execute and advance, after the host window (R80, R82 to R86). -/
def runInstruction (s : State) : Result :=
  let t := (fetch s).2
  match lookup (fetch s).1 with
  | none => .next (raise (.unsupportedOpcode (fetch s).1) t)
  | some i =>
    match exec i t with
    | .next u => .next (finish t.pc i.length u)
    | .fault r => .fault r
    | .refused r => .refused r

/-- `Step()` while RS = Running (R80): the host window, and then the instruction unless the hook stopped the run. -/
def stepRunning (s : State) : Result :=
  let t := hostWindow s
  match t.rs with
  | .running => runInstruction t
  | .stopped => .next t
  | .faulted _ => .next t

/-- One step of the whole machine: the dispatch loop while a run is in progress, else the host's next call. -/
def machineStep (s : State) : Result :=
  match s.rs with
  | .running => stepRunning s
  | .stopped => .next (idle s)
  | .faulted _ => .next (idle s)

/-- The state in which the very next step fetches and runs the instruction of a table word: its bytes at PC, a run in progress,
no hook (log 9). -/
def placeFetchWord (s : State) (nbits w : Nat) : State :=
  startRun [] (s.writeBytes s.pc (tableBytes nbits w))

end Sys2Proof.Machine
end

