-- ==== Sys2Proof/Machine/Step.lean ====
section
/-! DEFINITION. The machine's step (R80, R210) and the placing of an instruction for its next fetch. -/

namespace Sys2Proof.Machine

/-- One step of the machine. -/
def step (s : State) : Host.Outcome State Fault Refusal := machineStep s

/-- The state whose next step runs the instruction of a table word. -/
def State.withFetchWord (s : State) (nbits w : Nat) : State := placeFetchWord s nbits w

end Sys2Proof.Machine
end

