-- ==== Sys2Proof/Safety.lean ====
section
/-! DEFINITION. What claims call a good state and a safe run. -/

namespace Sys2Proof.Machine

/-- A fault the spec can produce: an unsupported byte (R201); InvalidAddressingMode is unreachable with the table (R202). -/
def RunState.legal : RunState → Bool
  | .stopped => true
  | .running => true
  | .faulted (.unsupportedOpcode op) => (lookup op).isNone
  | .faulted (.invalidAddressingMode _) => false

/-- The invariant of the machine: memory in its canonical form and a legal run state. -/
def State.inv (s : State) : Bool := Memory.wf s.mem && s.rs.legal

/-- The run has ended with an error (R200). -/
def RunState.isFaulted : RunState → Bool
  | .stopped => false
  | .running => false
  | .faulted _ => true

/-- A safe run of `n` steps: every step answers a next state and none ends in an error. -/
def State.safeFor : Nat → State → Bool
  | 0, s => !s.rs.isFaulted
  | n + 1, s =>
    !s.rs.isFaulted && (match step s with
      | .next t => State.safeFor n t
      | .fault _ => false
      | .refused _ => false)

end Sys2Proof.Machine
end

