-- ==== Sys2Proof/WellFormed.lean ====
section
/-! DEFINITION. When an instruction with its operand bytes is well-formed: the operand bytes are those of its format
(rules R60, R63). Every value of every operand byte is legal (R69), so nothing else is checked. -/

namespace Sys2Proof

/-- F1 has no operand byte, F2 one, F3 two (R60). -/
def Operand.fits : Operand → Format → Bool
  | .none, .f1 => true
  | .byte _, .f2 => true
  | .word _ _, .f3 => true
  | .none, .f2 => false
  | .none, .f3 => false
  | .byte _, .f1 => false
  | .byte _, .f3 => false
  | .word _ _, .f1 => false
  | .word _ _, .f2 => false

/-- The operand bytes have the shape of the instruction's format. -/
def Code.wellFormed (c : Code) : Bool := c.operand.fits c.instr.mode.format

/-- The byte sequence is exactly one instruction, with nothing after it. -/
def wellFormedBytes (bytes : List Byte) : Bool :=
  match decode bytes with
  | .ok (_, rest) => rest.isEmpty
  | .error _ => false

end Sys2Proof
end

