-- ==== Sys2Proof/Certificates/Slice0/Obligations.lean ====
section
/-! DEFINITION. The statements about the machine, for the provers. `s` is the state an instruction runs in: PC is the address
of its first operand byte (R82). An address is named by the resolver `ea`, applied to that state. -/

namespace Sys2Proof.Forms

/-! The forms each rule lists: the instruction, its addressing mode and its opcode byte. -/

/-- R120. -/
def adc : List (Instr × Mode × Byte) :=
  [(.adcImmediate, .immediate, 0x69),
   (.adcZeroPage, .zeroPage, 0x65),
   (.adcZeroPageX, .zeroPageX, 0x75),
   (.adcAbsolute, .absolute, 0x6D),
   (.adcAbsoluteX, .absoluteX, 0x7D),
   (.adcAbsoluteY, .absoluteY, 0x79),
   (.adcIndirectX, .indirectX, 0x61),
   (.adcIndirectY, .indirectY, 0x71)]

/-- R121. -/
def sbc : List (Instr × Mode × Byte) :=
  [(.sbcImmediate, .immediate, 0xE9),
   (.sbcZeroPage, .zeroPage, 0xE5),
   (.sbcZeroPageX, .zeroPageX, 0xF5),
   (.sbcAbsolute, .absolute, 0xED),
   (.sbcAbsoluteX, .absoluteX, 0xFD),
   (.sbcAbsoluteY, .absoluteY, 0xF9),
   (.sbcIndirectX, .indirectX, 0xE1),
   (.sbcIndirectY, .indirectY, 0xF1)]

/-- R122. -/
def and : List (Instr × Mode × Byte) :=
  [(.andImmediate, .immediate, 0x29),
   (.andZeroPage, .zeroPage, 0x25),
   (.andZeroPageX, .zeroPageX, 0x35),
   (.andAbsolute, .absolute, 0x2D),
   (.andAbsoluteX, .absoluteX, 0x3D),
   (.andAbsoluteY, .absoluteY, 0x39),
   (.andIndirectX, .indirectX, 0x21),
   (.andIndirectY, .indirectY, 0x31)]

/-- R124. -/
def cmp : List (Instr × Mode × Byte) :=
  [(.cmpImmediate, .immediate, 0xC9),
   (.cmpZeroPage, .zeroPage, 0xC5),
   (.cmpZeroPageX, .zeroPageX, 0xD5),
   (.cmpAbsolute, .absolute, 0xCD),
   (.cmpAbsoluteX, .absoluteX, 0xDD),
   (.cmpAbsoluteY, .absoluteY, 0xD9),
   (.cmpIndirectX, .indirectX, 0xC1),
   (.cmpIndirectY, .indirectY, 0xD1)]

/-- R125. -/
def cpx : List (Instr × Mode × Byte) :=
  [(.cpxImmediate, .immediate, 0xE0),
   (.cpxZeroPage, .zeroPage, 0xE4),
   (.cpxAbsolute, .absolute, 0xEC)]

/-- R170. -/
def lda : List (Instr × Mode × Byte) :=
  [(.ldaImmediate, .immediate, 0xA9),
   (.ldaZeroPage, .zeroPage, 0xA5),
   (.ldaZeroPageX, .zeroPageX, 0xB5),
   (.ldaAbsolute, .absolute, 0xAD),
   (.ldaAbsoluteX, .absoluteX, 0xBD),
   (.ldaAbsoluteY, .absoluteY, 0xB9),
   (.ldaIndirectX, .indirectX, 0xA1),
   (.ldaIndirectY, .indirectY, 0xB1)]

/-- R171. -/
def ldx : List (Instr × Mode × Byte) :=
  [(.ldxImmediate, .immediate, 0xA2),
   (.ldxZeroPage, .zeroPage, 0xA6),
   (.ldxZeroPageY, .zeroPageY, 0xB6),
   (.ldxAbsolute, .absolute, 0xAE),
   (.ldxAbsoluteY, .absoluteY, 0xBE)]

/-- R172. -/
def ldy : List (Instr × Mode × Byte) :=
  [(.ldyImmediate, .immediate, 0xA0),
   (.ldyZeroPage, .zeroPage, 0xA4),
   (.ldyZeroPageX, .zeroPageX, 0xB4),
   (.ldyAbsolute, .absolute, 0xAC),
   (.ldyAbsoluteX, .absoluteX, 0xBC)]

/-- R173. -/
def sta : List (Instr × Mode × Byte) :=
  [(.staZeroPage, .zeroPage, 0x85),
   (.staZeroPageX, .zeroPageX, 0x95),
   (.staAbsolute, .absolute, 0x8D),
   (.staAbsoluteX, .absoluteX, 0x9D),
   (.staAbsoluteY, .absoluteY, 0x99),
   (.staIndirectX, .indirectX, 0x81),
   (.staIndirectY, .indirectY, 0x91)]

/-- R174. -/
def stx : List (Instr × Mode × Byte) :=
  [(.stxZeroPage, .zeroPage, 0x86),
   (.stxZeroPageY, .zeroPageY, 0x96),
   (.stxAbsolute, .absolute, 0x8E)]

/-- R175. -/
def sty : List (Instr × Mode × Byte) :=
  [(.styZeroPage, .zeroPage, 0x84),
   (.styZeroPageX, .zeroPageX, 0x94),
   (.styAbsolute, .absolute, 0x8C)]

/-- R123, the memory forms. -/
def aslMem : List (Instr × Mode × Byte) :=
  [(.aslZeroPage, .zeroPage, 0x06),
   (.aslZeroPageX, .zeroPageX, 0x16),
   (.aslAbsolute, .absolute, 0x0E),
   (.aslAbsoluteX, .absoluteX, 0x1E)]

/-- R141 to R145: the branch, its opcode byte, the bit of P it reads and the value of the bit on which it is taken. -/
def branch : List (Instr × Byte × Nat × Bool) :=
  [(.bcc, 0x90, 0, false), (.bcs, 0xB0, 0, true), (.beq, 0xF0, 1, true), (.bne, 0xD0, 1, false), (.bpl, 0x10, 7, false)]

/-- R68: the 171 unsupported bytes. -/
def unsupported : List Byte :=
  [0x01, 0x02, 0x03, 0x04, 0x05, 0x07, 0x08, 0x09, 0x0B, 0x0C, 0x0D, 0x0F, 0x11, 0x12, 0x13, 0x14] ++
  [0x15, 0x17, 0x19, 0x1A, 0x1B, 0x1C, 0x1D, 0x1F, 0x22, 0x23, 0x24, 0x26, 0x27, 0x28, 0x2A, 0x2B] ++
  [0x2C, 0x2E, 0x2F, 0x30, 0x32, 0x33, 0x34, 0x36, 0x37, 0x3A, 0x3B, 0x3C, 0x3E, 0x3F, 0x40, 0x41] ++
  [0x42, 0x43, 0x44, 0x45, 0x46, 0x47, 0x48, 0x49, 0x4A, 0x4B, 0x4C, 0x4D, 0x4E, 0x4F, 0x50, 0x51] ++
  [0x52, 0x53, 0x54, 0x55, 0x56, 0x57, 0x58, 0x59, 0x5A, 0x5B, 0x5C, 0x5D, 0x5E, 0x5F, 0x62, 0x63] ++
  [0x64, 0x66, 0x67, 0x68, 0x6A, 0x6B, 0x6C, 0x6E, 0x6F, 0x70, 0x72, 0x73, 0x74, 0x76, 0x77, 0x78] ++
  [0x7A, 0x7B, 0x7C, 0x7E, 0x7F, 0x80, 0x82, 0x83, 0x87, 0x88, 0x89, 0x8B, 0x8F, 0x92, 0x93, 0x97] ++
  [0x98, 0x9A, 0x9B, 0x9C, 0x9E, 0x9F, 0xA3, 0xA7, 0xA8, 0xAB, 0xAF, 0xB2, 0xB3, 0xB7, 0xB8, 0xBA] ++
  [0xBB, 0xBF, 0xC0, 0xC2, 0xC3, 0xC4, 0xC6, 0xC7, 0xC8, 0xCB, 0xCC, 0xCE, 0xCF, 0xD2, 0xD3, 0xD4] ++
  [0xD6, 0xD7, 0xD8, 0xDA, 0xDB, 0xDC, 0xDE, 0xDF, 0xE2, 0xE3, 0xE6, 0xE7, 0xEA, 0xEB, 0xEE, 0xEF] ++
  [0xF2, 0xF3, 0xF4, 0xF6, 0xF7, 0xF8, 0xFA, 0xFB, 0xFC, 0xFE, 0xFF]

end Sys2Proof.Forms

open Sys2Proof Sys2Proof.Machine

namespace Sys2Proof.Say

/-- The status byte `p'` has the given N, V, Z and C, and bits 5 to 2 of `p` (R25, R104). -/
def Status (p p' : Byte) (n v z c : Bool) : Prop :=
  p'.getLsbD 7 = n ∧ p'.getLsbD 6 = v ∧ p'.getLsbD 1 = z ∧ p'.getLsbD 0 = c ∧ p'.extractLsb' 2 4 = p.extractLsb' 2 4

/-- Two status bytes hold the same four flags (R25). -/
def SameFlags (p q : Byte) : Prop :=
  p.getLsbD 7 = q.getLsbD 7 ∧ p.getLsbD 6 = q.getLsbD 6 ∧ p.getLsbD 1 = q.getLsbD 1 ∧ p.getLsbD 0 = q.getLsbD 0

/-- The instruction is one of the mnemonics listed. -/
def OneOf (i : Instr) (ms : List Mnemonic) : Prop := (descriptor i).mnemonic ∈ ms

/-- The state in which the handler runs: after the host window, with PC past the opcode byte (R81, R82). -/
def Fetched (s : State) : State := { hostWindow s with pc := (hostWindow s).pc + 1 }

/-- The opcode byte a running machine is about to execute (R82). -/
def OpcodeOf (s : State) : Byte := (hostWindow s).readByte (hostWindow s).pc

/-- A run is in progress and the hook lets the step go on. -/
def Goes (s : State) : Prop := s.rs = .running ∧ (hostWindow s).rs = .running

end Sys2Proof.Say

open Sys2Proof.Say

/-! ### Encoding -/

/-- Decode and encode agree on every well-formed instruction, whatever its operand bytes and whatever follows it. The byte values are the spec's decision D2. -/
def Obligations.DecodeOfEncodeIsTheInstruction : Prop :=
  ∀ (c : Code) (rest : List Byte), c.wellFormed = true → decode (encode c ++ rest) = .ok (c, rest)

/-- The other direction: no accepted byte sequence has a second encoding. -/
def Obligations.EncodeOfDecodeIsTheBytes : Prop :=
  ∀ (bytes rest : List Byte) (c : Code), decode bytes = .ok (c, rest) →
    c.wellFormed = true ∧ encode c ++ rest = bytes

/-- Sample words of each family, bit by bit from the opcode table's encoding column, and one of the 171 unsupported bytes (decision D2). -/
def Obligations.SpecWordsDecode : Prop :=
  decode [0b01101001, 0b00000101] = .ok (⟨.adcImmediate, .byte 0x05⟩, []) ∧
  decode [0b00001010] = .ok (⟨.aslAccumulator, .none⟩, []) ∧
  decode [0b11010000, 0b11111011] = .ok (⟨.bne, .byte 0xFB⟩, []) ∧
  decode [0b11001010] = .ok (⟨.dex, .none⟩, []) ∧
  decode [0b00100000, 0b00001010, 0b00000110] = .ok (⟨.jsr, .word 0x0A 0x06⟩, []) ∧
  decode [0b10111101, 0b01000100, 0b00110011] = .ok (⟨.ldaAbsoluteX, .word 0x44 0x33⟩, []) ∧
  decode [0b10010110, 0b11110000] = .ok (⟨.stxZeroPageY, .byte 0xF0⟩, []) ∧
  decode [0b11111111] = .error (.unsupportedOpcode 0xFF)

/-! ### Memory -/

/-- MemRead(addr, 2), as numbers; the address of the high byte wraps at 16 bits. -/
def Obligations.WordReadIsLittleEndian : Prop :=
  ∀ (s : State) (addr hiAddr : Word), hiAddr.toNat = (addr.toNat + 1) % 65536 →
    (s.readWord addr).toNat = (s.readByte addr).toNat + 256 * (s.readByte hiAddr).toNat

/-- R41 on the model's own representation: that the memory is canonical, before and after, is no word of R41 but the model's choice (log 16, DESIGN CHOICE), kept by every step (InvariantKeptByEveryStep). -/
def Obligations.ByteWriteChangesOneCell : Prop :=
  ∀ (s : State) (addr : Word) (v : Byte), Memory.wf s.mem = true →
    (s.writeByte addr v).readByte addr = v ∧
    (∀ b : Word, b ≠ addr → (s.writeByte addr v).readByte b = s.readByte b) ∧
    s.writeByte addr v = { s with mem := (s.writeByte addr v).mem } ∧
    Memory.wf (s.writeByte addr v).mem = true

/-- The representation is the model's own (log 16). -/
def Obligations.CanonicalMemoriesWithEqualReadsAreEqual : Prop :=
  ∀ m m' : Memory, Memory.wf m = true → Memory.wf m' = true →
    (∀ addr : Word, Memory.read m addr.toNat = Memory.read m' addr.toNat) → m = m'

/-! ### Addressing-mode resolver -/

/-- R91 to R96 and R99, as numbers. -/
def Obligations.ResolverGivesTheModesAddress : Prop :=
  ∀ (s : State) (b lo hi : Nat), b = (s.readByte s.pc).toNat → lo = b → hi = (s.readByte (s.pc + 1)).toNat →
    ea .immediate s = .ok s.pc ∧ ea .relative s = .ok s.pc ∧
    ea .zeroPage s = .ok (BitVec.ofNat 16 b) ∧
    ea .zeroPageX s = .ok (BitVec.ofNat 16 ((b + s.x.toNat) % 256)) ∧
    ea .zeroPageY s = .ok (BitVec.ofNat 16 ((b + s.y.toNat) % 256)) ∧
    ea .absolute s = .ok (BitVec.ofNat 16 (lo + 256 * hi)) ∧
    ea .absoluteX s = .ok (BitVec.ofNat 16 ((lo + 256 * hi + s.x.toNat) % 65536)) ∧
    ea .absoluteY s = .ok (BitVec.ofNat 16 ((lo + 256 * hi + s.y.toNat) % 65536)) ∧
    ea .indirectX s = .ok (readPtr (BitVec.ofNat 8 ((b + s.x.toNat) % 256)) s)

/-- The parameter and its two values are the spec's decision D11; both are covered. -/
def Obligations.PointerReadFollowsTheParameter : Prop :=
  ∀ (s : State) (z : Byte),
    (readPtr z s).toNat = (s.readByte (BitVec.ofNat 16 z.toNat)).toNat + 256 *
      (match s.params.zpPtrWrap with
        | .linear16 => (s.readByte (BitVec.ofNat 16 (z.toNat + 1))).toNat
        | .zeroPage8 => (s.readByte (BitVec.ofNat 16 ((z.toNat + 1) % 256))).toNat) ∧
    ea .indirectY s = .ok (BitVec.ofNat 16 (((readPtr (s.readByte s.pc) s).toNat + s.y.toNat) % 65536))

/-- The Accumulator case is the spec's decision D20. -/
def Obligations.ResolverRefusesTwoModes : Prop :=
  ∀ (m : Mode) (s : State) (rest : Word → State),
    ((∃ addr, ea m s = .ok addr) ↔ m ≠ .noneAddressing ∧ m ≠ .accumulator) ∧
    (m = .noneAddressing ∨ m = .accumulator → ea m s = .error (.invalidAddressingMode m) ∧
      withEa m s rest = .next { s with rs := .faulted (.invalidAddressingMode m) })

/-- The stack page's base is the spec's decision D4. -/
def Obligations.IndexedZeroPageAndStackStayInTheirPages : Prop :=
  ∀ (s : State) (addr : Word),
    (ea .zeroPage s = .ok addr ∨ ea .zeroPageX s = .ok addr ∨ ea .zeroPageY s = .ok addr → addr.toNat < 0x100) ∧
    0x100 ≤ s.stackAddr.toNat ∧ s.stackAddr.toNat ≤ 0x1FF

/-! ### Arithmetic, logic, shift and compare -/

/-- R120 and R101 (AddFlags). -/
def Obligations.AdcAddsWithoutCarryIn : Prop :=
  ∀ (i : Instr) (mode : Mode) (op : Byte), (i, mode, op) ∈ Forms.adc → ∀ s : State, lookup op = some i ∧
    ∃ (addr : Word) (m p' : Byte), ea mode s = .ok addr ∧ m = s.readByte addr ∧
      exec i s = .next { s with a := BitVec.ofNat 8 ((s.a.toNat + m.toNat) % 256), p := p' } ∧
      Status s.p p' (BitVec.ofNat 8 ((s.a.toNat + m.toNat) % 256)).msb
        (decide (s.a.toInt + m.toInt < -128 ∨ s.a.toInt + m.toInt > 127))
        (decide ((s.a.toNat + m.toNat) % 256 = 0)) (decide (s.a.toNat + m.toNat > 255))

/-- SBC is the spec's decision D8. -/
def Obligations.SbcSubtractsWithoutBorrowIn : Prop :=
  ∀ (i : Instr) (mode : Mode) (op : Byte), (i, mode, op) ∈ Forms.sbc → ∀ s : State, lookup op = some i ∧
    ∃ (addr : Word) (m p' r : Byte), ea mode s = .ok addr ∧ m = s.readByte addr ∧
      (r.toNat : Int) = ((s.a.toNat : Int) - m.toNat) % 256 ∧
      exec i s = .next { s with a := r, p := p' } ∧
      Status s.p p' r.msb (decide (s.a.toInt - m.toInt < -128 ∨ s.a.toInt - m.toInt > 127))
        (decide (s.a = m)) (decide (s.a.toNat < m.toNat))

/-- R122. -/
def Obligations.AndMasksTheAccumulator : Prop :=
  ∀ (i : Instr) (mode : Mode) (op : Byte), (i, mode, op) ∈ Forms.and → ∀ s : State, lookup op = some i ∧
    ∃ (addr : Word) (p' r : Byte), ea mode s = .ok addr ∧
      (∀ k : Nat, r.getLsbD k = (s.a.getLsbD k && (s.readByte addr).getLsbD k)) ∧
      exec i s = .next { s with a := r, p := p' } ∧
      Status s.p p' (r.getLsbD 7) (s.p.getLsbD 6) (decide (r.toNat = 0)) (s.p.getLsbD 0)

/-- ASL, Accumulator mode. -/
def Obligations.AslAccumulatorShiftsLeft : Prop :=
  ∀ s : State, lookup 0x0A = some .aslAccumulator ∧
    ∃ p' r : Byte, r.toNat = (s.a.toNat * 2) % 256 ∧
      exec .aslAccumulator s = .next { s with a := r, p := p' } ∧
      Status s.p p' (r.getLsbD 7) (s.p.getLsbD 6) (decide (r.toNat = 0)) (s.a.getLsbD 7)

/-- The write-back is the spec's decision D10. -/
def Obligations.AslMemoryShiftsTheCellLeft : Prop :=
  ∀ (i : Instr) (mode : Mode) (op : Byte), (i, mode, op) ∈ Forms.aslMem → ∀ s : State, Memory.wf s.mem = true →
    lookup op = some i ∧ (∃ addr, ea mode s = .ok addr) ∧
    ∀ addr : Word, ea mode s = .ok addr → ∃ t : State, exec i s = .next t ∧
      t = { s with mem := t.mem, p := t.p } ∧
      (t.readByte addr).toNat = ((s.readByte addr).toNat * 2) % 256 ∧
      (∀ b : Word, b ≠ addr → t.readByte b = s.readByte b) ∧
      Status s.p t.p ((t.readByte addr).getLsbD 7) (s.p.getLsbD 6) (decide ((t.readByte addr).toNat = 0))
        ((s.readByte addr).getLsbD 7)

/-- R124 and R103 (CmpFlags). -/
def Obligations.CmpSetsFlagsOnly : Prop :=
  ∀ (i : Instr) (mode : Mode) (op : Byte), (i, mode, op) ∈ Forms.cmp → ∀ s : State, lookup op = some i ∧
    ∃ (addr : Word) (m p' diff : Byte), ea mode s = .ok addr ∧ m = s.readByte addr ∧
      (diff.toNat : Int) = ((s.a.toNat : Int) - m.toNat) % 256 ∧
      exec i s = .next { s with p := p' } ∧
      Status s.p p' (diff.getLsbD 7) (s.p.getLsbD 6) (decide (s.a.toNat = m.toNat)) (decide (s.a.toNat ≥ m.toNat))

/-- Z is the spec's decision D9. -/
def Obligations.CpxTakesNegativeFromTheRegister : Prop :=
  ∀ (i : Instr) (mode : Mode) (op : Byte), (i, mode, op) ∈ Forms.cpx → ∀ s : State, lookup op = some i ∧
    ∃ (addr : Word) (m p' : Byte), ea mode s = .ok addr ∧ m = s.readByte addr ∧
      exec i s = .next { s with p := p' } ∧
      Status s.p p' (s.x.getLsbD 7) (s.p.getLsbD 6) (decide (s.x.toNat = m.toNat)) (decide (s.x.toNat ≥ m.toNat))

/-! ### Loads and stores -/

/-- R170. -/
def Obligations.LdaLoadsTheByte : Prop :=
  ∀ (i : Instr) (mode : Mode) (op : Byte), (i, mode, op) ∈ Forms.lda → ∀ s : State, lookup op = some i ∧
    ∃ (addr : Word) (v p' : Byte), ea mode s = .ok addr ∧ v = s.readByte addr ∧
      exec i s = .next { s with a := v, p := p' } ∧
      Status s.p p' (v.getLsbD 7) (s.p.getLsbD 6) (decide (v.toNat = 0)) (s.p.getLsbD 0)

/-- R171. -/
def Obligations.LdxLoadsTheByte : Prop :=
  ∀ (i : Instr) (mode : Mode) (op : Byte), (i, mode, op) ∈ Forms.ldx → ∀ s : State, lookup op = some i ∧
    ∃ (addr : Word) (v p' : Byte), ea mode s = .ok addr ∧ v = s.readByte addr ∧
      exec i s = .next { s with x := v, p := p' } ∧
      Status s.p p' (v.getLsbD 7) (s.p.getLsbD 6) (decide (v.toNat = 0)) (s.p.getLsbD 0)

/-- R172. -/
def Obligations.LdyLoadsTheByte : Prop :=
  ∀ (i : Instr) (mode : Mode) (op : Byte), (i, mode, op) ∈ Forms.ldy → ∀ s : State, lookup op = some i ∧
    ∃ (addr : Word) (v p' : Byte), ea mode s = .ok addr ∧ v = s.readByte addr ∧
      exec i s = .next { s with y := v, p := p' } ∧
      Status s.p p' (v.getLsbD 7) (s.p.getLsbD 6) (decide (v.toNat = 0)) (s.p.getLsbD 0)

/-- R173. -/
def Obligations.StaStoresOneByte : Prop :=
  ∀ (i : Instr) (mode : Mode) (op : Byte), (i, mode, op) ∈ Forms.sta → ∀ s : State, Memory.wf s.mem = true →
    lookup op = some i ∧ (∃ addr, ea mode s = .ok addr) ∧
    ∀ addr : Word, ea mode s = .ok addr → ∃ t : State, exec i s = .next t ∧
      t = { s with mem := t.mem } ∧ t.readByte addr = s.a ∧
      ∀ b : Word, b ≠ addr → t.readByte b = s.readByte b

/-- R174. -/
def Obligations.StxStoresOneByte : Prop :=
  ∀ (i : Instr) (mode : Mode) (op : Byte), (i, mode, op) ∈ Forms.stx → ∀ s : State, Memory.wf s.mem = true →
    lookup op = some i ∧ (∃ addr, ea mode s = .ok addr) ∧
    ∀ addr : Word, ea mode s = .ok addr → ∃ t : State, exec i s = .next t ∧
      t = { s with mem := t.mem } ∧ t.readByte addr = s.x ∧
      ∀ b : Word, b ≠ addr → t.readByte b = s.readByte b

/-- R175. -/
def Obligations.StyStoresOneByte : Prop :=
  ∀ (i : Instr) (mode : Mode) (op : Byte), (i, mode, op) ∈ Forms.sty → ∀ s : State, Memory.wf s.mem = true →
    lookup op = some i ∧ (∃ addr, ea mode s = .ok addr) ∧
    ∀ addr : Word, ea mode s = .ok addr → ∃ t : State, exec i s = .next t ∧
      t = { s with mem := t.mem } ∧ t.readByte addr = s.y ∧
      ∀ b : Word, b ≠ addr → t.readByte b = s.readByte b

/-- The round trip property, as the spec derives it. -/
def Obligations.StoreThenLoadRoundTrip : Prop :=
  ∀ (i j : Instr) (mode : Mode) (op op' : Byte), (i, mode, op) ∈ Forms.sta → (j, mode, op') ∈ Forms.lda →
    ∀ s t r : State, Memory.wf s.mem = true → exec i s = .next t → r.mem = t.mem → ea mode r = ea mode s →
      ∃ u : State, exec j r = .next u ∧ u.a = s.a

/-! ### Branches -/

/-- The width of the addition is the spec's decision D12. -/
def Obligations.BranchesWriteThePcOnlyWhenTaken : Prop :=
  ∀ (i : Instr) (op : Byte) (bit : Nat) (val : Bool), (i, op, bit, val) ∈ Forms.branch → ∀ s : State,
    lookup op = some i ∧
    (s.p.getLsbD bit = val → ∃ dest : Word, exec i s = .next { s with pc := dest } ∧
      (dest.toNat : Int) = ((s.pc.toNat : Int) + 1 + (s.readByte s.pc).toInt) % 65536) ∧
    (s.p.getLsbD bit ≠ val → exec i s = .next s)

/-- The advance of a taken branch with d = 0xFF is the spec's decision D13. -/
def Obligations.BranchStepLeavesThePcAtTheTarget : Prop :=
  ∀ (i : Instr) (op : Byte) (bit : Nat) (val : Bool), (i, op, bit, val) ∈ Forms.branch → ∀ s t : State,
    Goes s → t = hostWindow s → OpcodeOf s = op → ∃ dest : Word, step s = .next { t with pc := dest } ∧
      (t.p.getLsbD bit ≠ val ∨ t.readByte (t.pc + 1) = 0xFF → dest = t.pc + 2) ∧
      (t.p.getLsbD bit = val → t.readByte (t.pc + 1) ≠ 0xFF →
        (dest.toNat : Int) = ((t.pc.toNat : Int) + 2 + (t.readByte (t.pc + 1)).toInt) % 65536)

/-! ### Flag, increment, decrement and transfer -/

/-- R150 and R151. -/
def Obligations.ClcAndSecWriteTheCarryOnly : Prop :=
  lookup 0x18 = some .clc ∧ lookup 0x38 = some .sec ∧ ∀ s : State,
    (∃ p' : Byte, exec .clc s = .next { s with p := p' } ∧ p'.getLsbD 0 = false ∧
      ∀ k : Nat, k ≠ 0 → p'.getLsbD k = s.p.getLsbD k) ∧
    (∃ p' : Byte, exec .sec s = .next { s with p := p' } ∧ p'.getLsbD 0 = true ∧
      ∀ k : Nat, k ≠ 0 → p'.getLsbD k = s.p.getLsbD k)

/-- R152 and R153. -/
def Obligations.InxAndDexCountModulo256 : Prop :=
  lookup 0xE8 = some .inx ∧ lookup 0xCA = some .dex ∧ ∀ s : State,
    (∃ p' r : Byte, exec .inx s = .next { s with x := r, p := p' } ∧ r.toNat = (s.x.toNat + 1) % 256 ∧
      Status s.p p' (r.getLsbD 7) (s.p.getLsbD 6) (decide (r.toNat = 0)) (s.p.getLsbD 0)) ∧
    (∃ p' r : Byte, exec .dex s = .next { s with x := r, p := p' } ∧ r.toNat = (s.x.toNat + 255) % 256 ∧
      Status s.p p' (r.getLsbD 7) (s.p.getLsbD 6) (decide (r.toNat = 0)) (s.p.getLsbD 0))

/-- R154 and R155. -/
def Obligations.TransfersCopyAndSetZN : Prop :=
  lookup 0xAA = some .tax ∧ lookup 0x8A = some .txa ∧ ∀ s : State,
    (∃ p' : Byte, exec .tax s = .next { s with x := s.a, p := p' } ∧
      Status s.p p' (s.a.getLsbD 7) (s.p.getLsbD 6) (decide (s.a.toNat = 0)) (s.p.getLsbD 0)) ∧
    (∃ p' : Byte, exec .txa s = .next { s with a := s.x, p := p' } ∧
      Status s.p p' (s.x.getLsbD 7) (s.p.getLsbD 6) (decide (s.x.toNat = 0)) (s.p.getLsbD 0))

/-! ### Stack, subroutines and halt -/

/-- The order and the page are the spec's decisions D7 and D4. -/
def Obligations.PushWritesThenDecrements : Prop :=
  ∀ (s : State) (v : Byte), Memory.wf s.mem = true →
    s.push v = { s with sp := s.sp - 1, mem := (s.push v).mem } ∧
    (s.push v).readByte (BitVec.ofNat 16 (0x100 + s.sp.toNat)) = v ∧
    ∀ b : Word, b.toNat ≠ 0x100 + s.sp.toNat → (s.push v).readByte b = s.readByte b

/-- The page's base is the spec's decision D4 (log 12). -/
def Obligations.PopIncrementsThenReads : Prop :=
  ∀ (s : State) (cell : Word), cell.toNat = 0x100 + (s.sp.toNat + 1) % 256 →
    s.pop.1 = s.readByte cell ∧ s.pop.2.sp.toNat = (s.sp.toNat + 1) % 256 ∧ s.pop.2 = { s with sp := s.pop.2.sp }

/-- What the spec's decision D7 is chosen for. -/
def Obligations.PopReturnsThePushedByte : Prop :=
  ∀ (s : State) (v : Byte), Memory.wf s.mem = true → (s.push v).pop.1 = v ∧ (s.push v).pop.2.sp = s.sp

/-- The read after the pushes is the spec's decision D29, the order and the cells of the pushes its decisions D7 and D4 (log 12). -/
def Obligations.JsrPushesTheReturnAndJumps : Prop :=
  lookup 0x20 = some .jsr ∧ ∀ (s : State) (hiAt loAt : Word), Memory.wf s.mem = true →
    hiAt.toNat = 0x100 + s.sp.toNat → loAt.toNat = 0x100 + (s.sp.toNat + 255) % 256 →
    ∃ t : State, exec .jsr s = .next t ∧ t = { s with pc := t.pc, sp := s.sp - 2, mem := t.mem } ∧
      (t.readByte hiAt).toNat = (s.pc + 1).toNat / 256 ∧ (t.readByte loAt).toNat = (s.pc + 1).toNat % 256 ∧
      (∀ b : Word, b ≠ hiAt → b ≠ loAt → t.readByte b = s.readByte b) ∧
      t.pc.toNat = (t.readByte s.pc).toNat + 256 * (t.readByte (s.pc + 1)).toNat

/-- The popped cells lie in the page whose base is the spec's decision D4 (log 12). -/
def Obligations.RtsPopsTheReturnAddress : Prop :=
  lookup 0x60 = some .rts ∧ ∀ (s : State) (loAt hiAt : Word),
    loAt.toNat = 0x100 + (s.sp.toNat + 1) % 256 → hiAt.toNat = 0x100 + (s.sp.toNat + 2) % 256 →
    ∃ dest : Word, exec .rts s = .next { s with pc := dest, sp := s.sp + 2 } ∧
      dest.toNat = ((s.readByte loAt).toNat + 256 * (s.readByte hiAt).toNat + 1) % 65536

/-- The round trip of W6; it rests on the spec's decision D7. -/
def Obligations.ReturnGoesPastTheCall : Prop :=
  ∀ s : State, Memory.wf s.mem = true → ∃ t u : State, exec .jsr s = .next t ∧ exec .rts t = .next u ∧
    u = { s with pc := s.pc + 2, mem := t.mem }

/-- The advance of a JSR to a + 1 is the spec's decision D13, the stack page its decision D4 (log 12). -/
def Obligations.CallAndReturnStepsLeaveThePc : Prop :=
  ∀ s t : State, Goes s → t = hostWindow s →
    (OpcodeOf s = 0x20 → ∃ u : State, step s = .next u ∧ ∃ target : Word, target = u.readWord (t.pc + 1) ∧
      (target ≠ t.pc + 1 → u.pc = target) ∧ (target = t.pc + 1 → u.pc = target + 2)) ∧
    (OpcodeOf s = 0x60 → ∃ u : State, step s = .next u ∧
      u.pc = concat16 (t.readByte (stackBase + zext16 (t.sp + 2))) (t.readByte (stackBase + zext16 (t.sp + 1))) + 1)

/-- BRK is the designed termination. -/
def Obligations.BrkStopsTheRun : Prop :=
  lookup 0x00 = some .brk ∧ (∀ s : State, exec .brk s = .next { s with rs := .stopped }) ∧
  ∀ s t : State, Goes s → t = hostWindow s → OpcodeOf s = 0x00 →
    step s = .next { t with pc := t.pc + 1, rs := .stopped }

/-! ### The whole instruction set -/

/-- That InvalidAddressingMode is unreachable with the table is what the spec says beside its decision D20. -/
def Obligations.InstructionsNeverFault : Prop :=
  ∀ (i : Instr) (s : State), s.rs.isFaulted = false → ∃ t : State, exec i s = .next t ∧ t.rs.isFaulted = false

/-- The flag table, which the spec derives, and the reserved bits (the spec's decision D19). -/
def Obligations.FlagsAreWrittenOnlyByTheirWriters : Prop :=
  ∀ (i : Instr) (s t : State), exec i s = .next t →
    (t.p.getLsbD 0 ≠ s.p.getLsbD 0 → OneOf i [.adc, .sbc, .asl, .cmp, .cpx, .clc, .sec]) ∧
    (t.p.getLsbD 6 ≠ s.p.getLsbD 6 → OneOf i [.adc, .sbc]) ∧
    (t.p.getLsbD 1 ≠ s.p.getLsbD 1 ∨ t.p.getLsbD 7 ≠ s.p.getLsbD 7 →
      OneOf i [.adc, .sbc, .and, .asl, .cmp, .cpx, .dex, .inx, .lda, .ldx, .ldy, .tax, .txa]) ∧
    t.p.extractLsb' 2 4 = s.p.extractLsb' 2 4

/-- The writers of each register and of memory, as the spec derives them. -/
def Obligations.RegistersAreWrittenOnlyByTheirWriters : Prop :=
  ∀ (i : Instr) (s t : State), exec i s = .next t →
    (t.a ≠ s.a → OneOf i [.adc, .sbc, .and, .lda, .txa] ∨ i = .aslAccumulator) ∧
    (t.x ≠ s.x → OneOf i [.dex, .inx, .ldx, .tax]) ∧
    (t.y ≠ s.y → OneOf i [.ldy]) ∧
    (t.sp ≠ s.sp → OneOf i [.jsr, .rts]) ∧
    (t.pc ≠ s.pc → OneOf i [.bcc, .bcs, .beq, .bne, .bpl, .jsr, .rts]) ∧
    (t.rs ≠ s.rs → OneOf i [.brk]) ∧
    ((∃ addr : Word, t.readByte addr ≠ s.readByte addr) →
      OneOf i [.sta, .stx, .sty, .jsr] ∨ (OneOf i [.asl] ∧ i ≠ .aslAccumulator))

/-- The reserved bits, the spec's decision D19. -/
def Obligations.ReservedStatusBitsHaveNoEffect : Prop :=
  ∀ (i : Instr) (s : State) (q : Byte), SameFlags q s.p → ∃ t t' : State,
    exec i s = .next t ∧ exec i { s with p := q } = .next t' ∧
    t' = { t with p := t'.p } ∧ SameFlags t'.p t.p ∧ t'.p.extractLsb' 2 4 = q.extractLsb' 2 4

/-- There is no carry-in and no borrow-in, and AND does not write C. -/
def Obligations.CarryIsNoInputToArithmetic : Prop :=
  ∀ (i : Instr) (s : State) (q : Byte), OneOf i [.adc, .sbc, .and, .asl, .cmp, .cpx] →
    (∀ k : Nat, k ≠ 0 → q.getLsbD k = s.p.getLsbD k) → ∃ t t' : State,
    exec i s = .next t ∧ exec i { s with p := q } = .next t' ∧ t' = { t with p := t'.p } ∧
    (∀ k : Nat, k ≠ 0 → t'.p.getLsbD k = t.p.getLsbD k) ∧ (¬ OneOf i [.and] → t'.p = t.p) ∧
    (OneOf i [.and] → t.p.getLsbD 0 = s.p.getLsbD 0 ∧ t'.p.getLsbD 0 = q.getLsbD 0)

/-- The readers of A, as the spec derives them. -/
def Obligations.AccumulatorIsReadOnlyByItsReaders : Prop :=
  ∀ (i : Instr) (s : State) (v : Byte), ¬ OneOf i [.adc, .sbc, .and, .cmp, .sta, .tax] → i ≠ .aslAccumulator →
    ∃ t t' : State, exec i s = .next t ∧ exec i { s with a := v } = .next t' ∧ t' = { t with a := t'.a } ∧
      (OneOf i [.lda, .txa] → t'.a = t.a) ∧ (¬ OneOf i [.lda, .txa] → t.a = s.a ∧ t'.a = v)

/-! ### The dispatch loop -/

/-- The comparison of PC is the spec's decision D13. -/
def Obligations.StepRunsTheDecodedInstruction : Prop :=
  ∀ (s t : State) (c : Code) (rest : List Byte), Goes s → t = hostWindow s →
    decode [t.readByte t.pc, t.readByte (t.pc + 1), t.readByte (t.pc + 2)] = .ok (c, rest) → c.wellFormed = true →
    ∃ u : State, exec c.instr { t with pc := t.pc + 1 } = .next u ∧
      step s = .next (if u.rs = .running ∧ u.pc = t.pc + 1
        then { u with pc := u.pc + BitVec.ofNat 16 (c.instr.length - 1) } else u)

/-- The loop's pseudocode; the comparison of PC is the spec's decision D13. -/
def Obligations.StepIsTheDispatchLoop : Prop :=
  ∀ s : State, s.rs = .running →
    ((hostWindow s).rs ≠ .running → step s = .next (hostWindow s)) ∧
    (Goes s → lookup (OpcodeOf s) = none →
      step s = .next { Fetched s with rs := .faulted (.unsupportedOpcode (OpcodeOf s)) }) ∧
    (∀ i : Instr, Goes s → lookup (OpcodeOf s) = some i → ∃ u : State, exec i (Fetched s) = .next u ∧
      (u.rs ≠ .running → step s = .next u) ∧
      (u.rs = .running → u.pc ≠ (Fetched s).pc → step s = .next u) ∧
      (u.rs = .running → u.pc = (Fetched s).pc →
        step s = .next { u with pc := u.pc + BitVec.ofNat 16 ((descriptor i).length - 1) }))

/-- The state after an error and its code are the spec's decisions D16 and D24. -/
def Obligations.UnsupportedByteFaultsTheRun : Prop :=
  (∀ op : Byte, op ∈ Forms.unsupported ↔ lookup op = none) ∧
  (∀ op : Byte, (FatalError.unsupportedOpcode op).code = 0) ∧
  ∀ s t : State, Goes s → t = hostWindow s → OpcodeOf s ∈ Forms.unsupported →
    step s = .next { t with pc := t.pc + 1, rs := .faulted (.unsupportedOpcode (OpcodeOf s)) }

/-- The first line of the table of resulting PCs, which the spec derives. -/
def Obligations.StraightLineStepAdvancesByTheLength : Prop :=
  ∀ (s t : State) (i : Instr), Goes s → t = hostWindow s → lookup (OpcodeOf s) = some i →
    ¬ OneOf i [.bcc, .bcs, .beq, .bne, .bpl, .jsr, .rts, .brk] →
    ∃ u : State, step s = .next u ∧ u.pc.toNat = (t.pc.toNat + (descriptor i).length) % 65536

/-- Fetch is coherent with every store, as the spec derives; the memory write of ASL and the cells of JSR's pushes are the spec's decisions D10, D4 and D7. -/
def Obligations.StoreIntoTheNextInstructionIsFetched : Prop :=
  ∀ s t : State, Goes s → t = hostWindow s → Memory.wf s.mem = true →
    (∀ (i : Instr) (mode : Mode) (op : Byte), (i, mode, op) ∈ Forms.sta ++ Forms.stx ++ Forms.sty ++ Forms.aslMem →
      OpcodeOf s = op → ea mode (Fetched s) = .ok (t.pc + BitVec.ofNat 16 i.length) →
      ∃ u : State, step s = .next u ∧ u.pc = t.pc + BitVec.ofNat 16 i.length ∧
        (OneOf i [.sta] → (fetch u).1 = t.a) ∧ (OneOf i [.stx] → (fetch u).1 = t.x) ∧
        (OneOf i [.sty] → (fetch u).1 = t.y) ∧
        (OneOf i [.asl] → (fetch u).1.toNat = ((t.readByte u.pc).toNat * 2) % 256) ∧
        (u.hook = [] → OpcodeOf u = (fetch u).1)) ∧
    (OpcodeOf s = 0x20 → ∃ u : State, step s = .next u ∧
      (u.pc.toNat = 0x100 + t.sp.toNat → (fetch u).1.toNat = (t.pc + 2).toNat / 256) ∧
      (u.pc.toNat = 0x100 + (t.sp.toNat + 255) % 256 → (fetch u).1.toNat = (t.pc + 2).toNat % 256) ∧
      (u.hook = [] → OpcodeOf u = (fetch u).1))

/-- The hook's halt is the spec's decision D21. -/
def Obligations.RunEndsInThreeWays : Prop :=
  ∀ s t : State, s.rs = .running → step s = .next t → t.rs ≠ .running →
    (t = hostWindow s ∧ t.rs = .stopped) ∨
    ((hostWindow s).rs = .running ∧ OpcodeOf s = 0x00 ∧ t.rs = .stopped) ∨
    ((hostWindow s).rs = .running ∧ lookup (OpcodeOf s) = none ∧ t.rs = .faulted (.unsupportedOpcode (OpcodeOf s)))

/-! ### The host interface -/

/-- The hook's verdict is the spec's decision D21; the list of windows is the model's (log 2). -/
def Obligations.HostWindowRunsBeforeTheFetch : Prop :=
  ∀ s : State, s.rs = .running →
    (∀ (acts : List HostAction) (rest : List Window), s.hook = ⟨acts, .halt⟩ :: rest →
      step s = .next { acts.foldl (fun t act => performAction act t) { s with hook := rest } with rs := .stopped }) ∧
    (∀ (acts : List HostAction) (rest : List Window), s.hook = ⟨acts, .continue⟩ :: rest →
      hostWindow s = acts.foldl (fun t act => performAction act t) { s with hook := rest } ∧ Goes s) ∧
    (s.hook = [] → hostWindow s = s ∧ Goes s)

/-- The ordering of the window and the fetch, as the spec derives it. -/
def Obligations.HostWriteInTheWindowIsFetched : Prop :=
  ∀ (s : State) (v : Byte) (rest : List Window), s.rs = .running → Memory.wf s.mem = true →
    s.hook = ⟨[.memWrite s.pc v], .continue⟩ :: rest →
    Goes s ∧ OpcodeOf s = v ∧
    (v = 0x00 → ∃ t : State, step s = .next t ∧ t.rs = .stopped ∧ t.pc = s.pc + 1 ∧ t.a = s.a) ∧
    (lookup v = none → ∃ t : State, step s = .next t ∧ t.rs = .faulted (.unsupportedOpcode v) ∧ t.pc = s.pc + 1)

/-- The window's reach is the spec's decision D22. -/
def Obligations.HostWindowCanReachAnyStore : Prop :=
  ∀ s t : State, Memory.wf s.mem = true → Memory.wf t.mem = true →
    t.rs = s.rs → t.hook = s.hook → t.calls = s.calls → t.params = s.params →
    ∃ acts : List HostAction, acts.foldl (fun u act => performAction act u) s = t

/-- The vector's address and SP_RESET are the spec's decisions D3 and D5; the parameter values of State.reset are the model's choice (log 4, 5, 6), on which this does not rest. -/
def Obligations.ResetActionSetsTheRegisters : Prop :=
  (∀ s : State, resetAction s = { s with
      a := 0, x := 0, y := 0, p := 0, sp := s.params.spReset,
      pc := BitVec.ofNat 16 ((s.readByte 0xFFFC).toNat + 256 * (s.readByte 0xFFFD).toNat) }) ∧
  (∀ c : Params, State.resetWith c = resetAction (State.new c) ∧ (State.resetWith c).rs = .stopped ∧
    (State.resetWith c).pc = 0 ∧ (State.resetWith c).mem = []) ∧
  ∃ c : Params, State.reset = State.resetWith c

/-- The refusal and the write order are the spec's decision D18. -/
def Obligations.LoadCopiesTheProgramAndSetsTheVector : Prop :=
  ∀ (s : State) (bytes : List Byte) (origin : Nat), Memory.wf s.mem = true → origin = s.params.programOrigin.toNat →
    (origin + bytes.length > 65536 → loadAction bytes s = s ∧ actionReply (.load bytes) s = .refused) ∧
    (origin + bytes.length ≤ 65536 → ∃ t : State, loadAction bytes s = t ∧ t = { s with mem := t.mem } ∧
      actionReply (.load bytes) s = .done ∧
      t.readWord 0xFFFC = s.params.programOrigin ∧
      (∀ (k : Nat) (v : Byte), bytes[k]? = some v → origin + k ≠ 0xFFFC → origin + k ≠ 0xFFFD →
        t.readByte (BitVec.ofNat 16 (origin + k)) = v) ∧
      (∀ b : Word, b.toNat < origin ∨ origin + bytes.length ≤ b.toNat → b ≠ 0xFFFC → b ≠ 0xFFFD →
        t.readByte b = s.readByte b))

/-- The list of host calls is the model's (log 3). -/
def Obligations.LoadAndRunBoots : Prop :=
  ∀ (s : State) (calls : List HostCall), s.rs = .stopped →
    (∀ bytes : List Byte, Memory.wf s.mem = true → s.calls = .loadAndRun bytes :: calls → loadFits bytes s = true →
      ∃ t : State, step s = .next t ∧ t = { s with
        pc := s.params.programOrigin, a := 0, x := 0, y := 0, p := 0, sp := s.params.spReset,
        rs := .running, hook := [], calls := calls, mem := (loadAction bytes s).mem }) ∧
    (∀ hook : List Window, s.calls = .runWithCallback hook :: calls →
      step s = .next { s with rs := .running, hook := hook, calls := calls }) ∧
    (s.calls = [] → step s = .next s)

/-- The host's register write is the spec's decision D22; the reply as a function of call and state is the model's (log 18). -/
def Obligations.HostRegisterAndWordWrites : Prop :=
  (∀ (s : State) (v : Word), performAction (.writeReg (.pc v)) s = { s with pc := v } ∧
    callReply (.act (.readReg .pc)) (performAction (.writeReg (.pc v)) s) = .word v) ∧
  (∀ (s : State) (v : Byte),
    performAction (.writeReg (.a v)) s = { s with a := v } ∧
    callReply (.act (.readReg .a)) (performAction (.writeReg (.a v)) s) = .byte v ∧
    performAction (.writeReg (.x v)) s = { s with x := v } ∧
    callReply (.act (.readReg .x)) (performAction (.writeReg (.x v)) s) = .byte v ∧
    performAction (.writeReg (.y v)) s = { s with y := v } ∧
    callReply (.act (.readReg .y)) (performAction (.writeReg (.y v)) s) = .byte v ∧
    performAction (.writeReg (.sp v)) s = { s with sp := v } ∧
    callReply (.act (.readReg .sp)) (performAction (.writeReg (.sp v)) s) = .byte v ∧
    performAction (.writeReg (.p v)) s = { s with p := v } ∧
    callReply (.act (.readReg .p)) (performAction (.writeReg (.p v)) s) = .byte v) ∧
  (∀ (s : State) (r : Reg), callReply (.act (.readReg r)) s = actionReply (.readReg r) s) ∧
  ∀ (s : State) (addr w : Word), Memory.wf s.mem = true →
    actionReply (.memReadU16 addr) (performAction (.memWriteU16 addr w) s) = .word w ∧
    ∀ b : Word, b ≠ addr → b ≠ addr + 1 →
      actionReply (.memRead b) (performAction (.memWriteU16 addr w) s) = .byte (s.readByte b)

/-- The terminal state is the spec's decision D16; that a call which is not allowed answers 'refused' is the model's wording (log 19). -/
def Obligations.FaultedIsFinal : Prop :=
  ∀ (s : State) (e : FatalError), s.rs = .faulted e →
    (∀ n : Nat, Host.Core.run Sys2Proof.core n s = .next { s with calls := s.calls.drop n }) ∧
    (∀ call : HostCall, hostCall call s = s) ∧
    (∀ (addr : Word) (r : Reg), callReply (.act (.memRead addr)) s = .byte (s.readByte addr) ∧
      callReply (.act (.memReadU16 addr)) s = .word (s.readWord addr) ∧
      callReply (.act (.readReg r)) s = readRegister r s) ∧
    (∀ call : HostCall, (∀ act, call = .act act → isRead act = false) → callReply call s = .refused)

/-! ### Invariants -/

/-- Memory's canonical form (the model's own, log 16), and that InvalidAddressingMode is unreachable with the table. -/
def Obligations.InvariantKeptByEveryStep : Prop :=
  ∀ s t : State, s.inv = true → step s = .next t → t.inv = true

/-- The first state of every instance satisfies the invariant. -/
def Obligations.InvariantHoldsAtReset : Prop :=
  (∀ c : Params, (State.new c).inv = true ∧ (State.resetWith c).inv = true) ∧ State.reset.inv = true

/-- Over all lives of an instance from new(); the host's plans are the model's fields (log 2, log 3). -/
def Obligations.EveryLifeOfAnInstanceKeepsTheInvariant : Prop :=
  ∀ (c : Params) (calls : List HostCall) (n : Nat), ∃ t : State,
    Host.Core.run Sys2Proof.core n { State.new c with calls := calls } = .next t ∧ t.inv = true ∧ t.params = c
end

