-- ==== Sys2Proof/Laws/Arms.lean ====
section
/-! SUPPORT. Each arm of `exec` as its shared operation in its addressing mode. -/

namespace Sys2Proof.Machine

theorem exec_brk (s : State) : exec .brk s = .next (s.setRs .stopped) := rfl
theorem exec_aslZeroPage (s : State) : exec .aslZeroPage s = aslMem .zeroPage s := rfl
theorem exec_aslAccumulator (s : State) : exec .aslAccumulator s = .next (aslA s) := rfl
theorem exec_aslAbsolute (s : State) : exec .aslAbsolute s = aslMem .absolute s := rfl
theorem exec_bpl (s : State) : exec .bpl s = branch .relative (!s.flag .n) s := rfl
theorem exec_aslZeroPageX (s : State) : exec .aslZeroPageX s = aslMem .zeroPageX s := rfl
theorem exec_clc (s : State) : exec .clc s = .next (s.setFlag .c false) := rfl
theorem exec_aslAbsoluteX (s : State) : exec .aslAbsoluteX s = aslMem .absoluteX s := rfl
theorem exec_jsr (s : State) : exec .jsr s = withEa .absolute (pushReturn s) (fun addr => (pushReturn s).setPc addr) := rfl
theorem exec_andIndirectX (s : State) : exec .andIndirectX s = andA .indirectX s := rfl
theorem exec_andZeroPage (s : State) : exec .andZeroPage s = andA .zeroPage s := rfl
theorem exec_andImmediate (s : State) : exec .andImmediate s = andA .immediate s := rfl
theorem exec_andAbsolute (s : State) : exec .andAbsolute s = andA .absolute s := rfl
theorem exec_andIndirectY (s : State) : exec .andIndirectY s = andA .indirectY s := rfl
theorem exec_andZeroPageX (s : State) : exec .andZeroPageX s = andA .zeroPageX s := rfl
theorem exec_sec (s : State) : exec .sec s = .next (s.setFlag .c true) := rfl
theorem exec_andAbsoluteY (s : State) : exec .andAbsoluteY s = andA .absoluteY s := rfl
theorem exec_andAbsoluteX (s : State) : exec .andAbsoluteX s = andA .absoluteX s := rfl
theorem exec_rts (s : State) : exec .rts s = .next ((popReturn s).2.setPc ((popReturn s).1 + 1)) := rfl
theorem exec_adcIndirectX (s : State) : exec .adcIndirectX s = adc .indirectX s := rfl
theorem exec_adcZeroPage (s : State) : exec .adcZeroPage s = adc .zeroPage s := rfl
theorem exec_adcImmediate (s : State) : exec .adcImmediate s = adc .immediate s := rfl
theorem exec_adcAbsolute (s : State) : exec .adcAbsolute s = adc .absolute s := rfl
theorem exec_adcIndirectY (s : State) : exec .adcIndirectY s = adc .indirectY s := rfl
theorem exec_adcZeroPageX (s : State) : exec .adcZeroPageX s = adc .zeroPageX s := rfl
theorem exec_adcAbsoluteY (s : State) : exec .adcAbsoluteY s = adc .absoluteY s := rfl
theorem exec_adcAbsoluteX (s : State) : exec .adcAbsoluteX s = adc .absoluteX s := rfl
theorem exec_staIndirectX (s : State) : exec .staIndirectX s = store .indirectX s.a s := rfl
theorem exec_styZeroPage (s : State) : exec .styZeroPage s = store .zeroPage s.y s := rfl
theorem exec_staZeroPage (s : State) : exec .staZeroPage s = store .zeroPage s.a s := rfl
theorem exec_stxZeroPage (s : State) : exec .stxZeroPage s = store .zeroPage s.x s := rfl
theorem exec_txa (s : State) : exec .txa s = .next ((s.setA s.x).setZN s.x) := rfl
theorem exec_styAbsolute (s : State) : exec .styAbsolute s = store .absolute s.y s := rfl
theorem exec_staAbsolute (s : State) : exec .staAbsolute s = store .absolute s.a s := rfl
theorem exec_stxAbsolute (s : State) : exec .stxAbsolute s = store .absolute s.x s := rfl
theorem exec_bcc (s : State) : exec .bcc s = branch .relative (!s.flag .c) s := rfl
theorem exec_staIndirectY (s : State) : exec .staIndirectY s = store .indirectY s.a s := rfl
theorem exec_styZeroPageX (s : State) : exec .styZeroPageX s = store .zeroPageX s.y s := rfl
theorem exec_staZeroPageX (s : State) : exec .staZeroPageX s = store .zeroPageX s.a s := rfl
theorem exec_stxZeroPageY (s : State) : exec .stxZeroPageY s = store .zeroPageY s.x s := rfl
theorem exec_staAbsoluteY (s : State) : exec .staAbsoluteY s = store .absoluteY s.a s := rfl
theorem exec_staAbsoluteX (s : State) : exec .staAbsoluteX s = store .absoluteX s.a s := rfl
theorem exec_ldyImmediate (s : State) : exec .ldyImmediate s = ldy .immediate s := rfl
theorem exec_ldaIndirectX (s : State) : exec .ldaIndirectX s = lda .indirectX s := rfl
theorem exec_ldxImmediate (s : State) : exec .ldxImmediate s = ldx .immediate s := rfl
theorem exec_ldyZeroPage (s : State) : exec .ldyZeroPage s = ldy .zeroPage s := rfl
theorem exec_ldaZeroPage (s : State) : exec .ldaZeroPage s = lda .zeroPage s := rfl
theorem exec_ldxZeroPage (s : State) : exec .ldxZeroPage s = ldx .zeroPage s := rfl
theorem exec_ldaImmediate (s : State) : exec .ldaImmediate s = lda .immediate s := rfl
theorem exec_tax (s : State) : exec .tax s = .next ((s.setX s.a).setZN s.a) := rfl
theorem exec_ldyAbsolute (s : State) : exec .ldyAbsolute s = ldy .absolute s := rfl
theorem exec_ldaAbsolute (s : State) : exec .ldaAbsolute s = lda .absolute s := rfl
theorem exec_ldxAbsolute (s : State) : exec .ldxAbsolute s = ldx .absolute s := rfl
theorem exec_bcs (s : State) : exec .bcs s = branch .relative (s.flag .c) s := rfl
theorem exec_ldaIndirectY (s : State) : exec .ldaIndirectY s = lda .indirectY s := rfl
theorem exec_ldyZeroPageX (s : State) : exec .ldyZeroPageX s = ldy .zeroPageX s := rfl
theorem exec_ldaZeroPageX (s : State) : exec .ldaZeroPageX s = lda .zeroPageX s := rfl
theorem exec_ldxZeroPageY (s : State) : exec .ldxZeroPageY s = ldx .zeroPageY s := rfl
theorem exec_ldaAbsoluteY (s : State) : exec .ldaAbsoluteY s = lda .absoluteY s := rfl
theorem exec_ldyAbsoluteX (s : State) : exec .ldyAbsoluteX s = ldy .absoluteX s := rfl
theorem exec_ldaAbsoluteX (s : State) : exec .ldaAbsoluteX s = lda .absoluteX s := rfl
theorem exec_ldxAbsoluteY (s : State) : exec .ldxAbsoluteY s = ldx .absoluteY s := rfl
theorem exec_cmpIndirectX (s : State) : exec .cmpIndirectX s = cmp .indirectX s := rfl
theorem exec_cmpZeroPage (s : State) : exec .cmpZeroPage s = cmp .zeroPage s := rfl
theorem exec_cmpImmediate (s : State) : exec .cmpImmediate s = cmp .immediate s := rfl
theorem exec_dex (s : State) : exec .dex s = .next ((s.setX (s.x - 1)).setZN (s.x - 1)) := rfl
theorem exec_cmpAbsolute (s : State) : exec .cmpAbsolute s = cmp .absolute s := rfl
theorem exec_bne (s : State) : exec .bne s = branch .relative (!s.flag .z) s := rfl
theorem exec_cmpIndirectY (s : State) : exec .cmpIndirectY s = cmp .indirectY s := rfl
theorem exec_cmpZeroPageX (s : State) : exec .cmpZeroPageX s = cmp .zeroPageX s := rfl
theorem exec_cmpAbsoluteY (s : State) : exec .cmpAbsoluteY s = cmp .absoluteY s := rfl
theorem exec_cmpAbsoluteX (s : State) : exec .cmpAbsoluteX s = cmp .absoluteX s := rfl
theorem exec_cpxImmediate (s : State) : exec .cpxImmediate s = cpx .immediate s := rfl
theorem exec_sbcIndirectX (s : State) : exec .sbcIndirectX s = sbc .indirectX s := rfl
theorem exec_cpxZeroPage (s : State) : exec .cpxZeroPage s = cpx .zeroPage s := rfl
theorem exec_sbcZeroPage (s : State) : exec .sbcZeroPage s = sbc .zeroPage s := rfl
theorem exec_inx (s : State) : exec .inx s = .next ((s.setX (s.x + 1)).setZN (s.x + 1)) := rfl
theorem exec_sbcImmediate (s : State) : exec .sbcImmediate s = sbc .immediate s := rfl
theorem exec_cpxAbsolute (s : State) : exec .cpxAbsolute s = cpx .absolute s := rfl
theorem exec_sbcAbsolute (s : State) : exec .sbcAbsolute s = sbc .absolute s := rfl
theorem exec_beq (s : State) : exec .beq s = branch .relative (s.flag .z) s := rfl
theorem exec_sbcIndirectY (s : State) : exec .sbcIndirectY s = sbc .indirectY s := rfl
theorem exec_sbcZeroPageX (s : State) : exec .sbcZeroPageX s = sbc .zeroPageX s := rfl
theorem exec_sbcAbsoluteY (s : State) : exec .sbcAbsoluteY s = sbc .absoluteY s := rfl
theorem exec_sbcAbsoluteX (s : State) : exec .sbcAbsoluteX s = sbc .absoluteX s := rfl

end Sys2Proof.Machine
end

