-- ==== Sys2Proof/Laws/State.lean ====
section
/-! SUPPORT. One lemma per field per update, so that no later proof unfolds a record update. -/

namespace Sys2Proof.Machine

/-! ### Register and run state writes -/

@[simp] theorem State.setPc_pc (s : State) (v : Word) : (s.setPc v).pc = v := rfl
@[simp] theorem State.setPc_a (s : State) (v : Word) : (s.setPc v).a = s.a := rfl
@[simp] theorem State.setPc_x (s : State) (v : Word) : (s.setPc v).x = s.x := rfl
@[simp] theorem State.setPc_y (s : State) (v : Word) : (s.setPc v).y = s.y := rfl
@[simp] theorem State.setPc_sp (s : State) (v : Word) : (s.setPc v).sp = s.sp := rfl
@[simp] theorem State.setPc_p (s : State) (v : Word) : (s.setPc v).p = s.p := rfl
@[simp] theorem State.setPc_mem (s : State) (v : Word) : (s.setPc v).mem = s.mem := rfl
@[simp] theorem State.setPc_rs (s : State) (v : Word) : (s.setPc v).rs = s.rs := rfl
@[simp] theorem State.setPc_hook (s : State) (v : Word) : (s.setPc v).hook = s.hook := rfl
@[simp] theorem State.setPc_calls (s : State) (v : Word) : (s.setPc v).calls = s.calls := rfl
@[simp] theorem State.setPc_params (s : State) (v : Word) : (s.setPc v).params = s.params := rfl

@[simp] theorem State.setA_pc (s : State) (v : Byte) : (s.setA v).pc = s.pc := rfl
@[simp] theorem State.setA_a (s : State) (v : Byte) : (s.setA v).a = v := rfl
@[simp] theorem State.setA_x (s : State) (v : Byte) : (s.setA v).x = s.x := rfl
@[simp] theorem State.setA_y (s : State) (v : Byte) : (s.setA v).y = s.y := rfl
@[simp] theorem State.setA_sp (s : State) (v : Byte) : (s.setA v).sp = s.sp := rfl
@[simp] theorem State.setA_p (s : State) (v : Byte) : (s.setA v).p = s.p := rfl
@[simp] theorem State.setA_mem (s : State) (v : Byte) : (s.setA v).mem = s.mem := rfl
@[simp] theorem State.setA_rs (s : State) (v : Byte) : (s.setA v).rs = s.rs := rfl
@[simp] theorem State.setA_hook (s : State) (v : Byte) : (s.setA v).hook = s.hook := rfl
@[simp] theorem State.setA_calls (s : State) (v : Byte) : (s.setA v).calls = s.calls := rfl
@[simp] theorem State.setA_params (s : State) (v : Byte) : (s.setA v).params = s.params := rfl

@[simp] theorem State.setX_pc (s : State) (v : Byte) : (s.setX v).pc = s.pc := rfl
@[simp] theorem State.setX_a (s : State) (v : Byte) : (s.setX v).a = s.a := rfl
@[simp] theorem State.setX_x (s : State) (v : Byte) : (s.setX v).x = v := rfl
@[simp] theorem State.setX_y (s : State) (v : Byte) : (s.setX v).y = s.y := rfl
@[simp] theorem State.setX_sp (s : State) (v : Byte) : (s.setX v).sp = s.sp := rfl
@[simp] theorem State.setX_p (s : State) (v : Byte) : (s.setX v).p = s.p := rfl
@[simp] theorem State.setX_mem (s : State) (v : Byte) : (s.setX v).mem = s.mem := rfl
@[simp] theorem State.setX_rs (s : State) (v : Byte) : (s.setX v).rs = s.rs := rfl
@[simp] theorem State.setX_hook (s : State) (v : Byte) : (s.setX v).hook = s.hook := rfl
@[simp] theorem State.setX_calls (s : State) (v : Byte) : (s.setX v).calls = s.calls := rfl
@[simp] theorem State.setX_params (s : State) (v : Byte) : (s.setX v).params = s.params := rfl

@[simp] theorem State.setY_pc (s : State) (v : Byte) : (s.setY v).pc = s.pc := rfl
@[simp] theorem State.setY_a (s : State) (v : Byte) : (s.setY v).a = s.a := rfl
@[simp] theorem State.setY_x (s : State) (v : Byte) : (s.setY v).x = s.x := rfl
@[simp] theorem State.setY_y (s : State) (v : Byte) : (s.setY v).y = v := rfl
@[simp] theorem State.setY_sp (s : State) (v : Byte) : (s.setY v).sp = s.sp := rfl
@[simp] theorem State.setY_p (s : State) (v : Byte) : (s.setY v).p = s.p := rfl
@[simp] theorem State.setY_mem (s : State) (v : Byte) : (s.setY v).mem = s.mem := rfl
@[simp] theorem State.setY_rs (s : State) (v : Byte) : (s.setY v).rs = s.rs := rfl
@[simp] theorem State.setY_hook (s : State) (v : Byte) : (s.setY v).hook = s.hook := rfl
@[simp] theorem State.setY_calls (s : State) (v : Byte) : (s.setY v).calls = s.calls := rfl
@[simp] theorem State.setY_params (s : State) (v : Byte) : (s.setY v).params = s.params := rfl

@[simp] theorem State.setSp_pc (s : State) (v : Byte) : (s.setSp v).pc = s.pc := rfl
@[simp] theorem State.setSp_a (s : State) (v : Byte) : (s.setSp v).a = s.a := rfl
@[simp] theorem State.setSp_x (s : State) (v : Byte) : (s.setSp v).x = s.x := rfl
@[simp] theorem State.setSp_y (s : State) (v : Byte) : (s.setSp v).y = s.y := rfl
@[simp] theorem State.setSp_sp (s : State) (v : Byte) : (s.setSp v).sp = v := rfl
@[simp] theorem State.setSp_p (s : State) (v : Byte) : (s.setSp v).p = s.p := rfl
@[simp] theorem State.setSp_mem (s : State) (v : Byte) : (s.setSp v).mem = s.mem := rfl
@[simp] theorem State.setSp_rs (s : State) (v : Byte) : (s.setSp v).rs = s.rs := rfl
@[simp] theorem State.setSp_hook (s : State) (v : Byte) : (s.setSp v).hook = s.hook := rfl
@[simp] theorem State.setSp_calls (s : State) (v : Byte) : (s.setSp v).calls = s.calls := rfl
@[simp] theorem State.setSp_params (s : State) (v : Byte) : (s.setSp v).params = s.params := rfl

@[simp] theorem State.setP_pc (s : State) (v : Byte) : (s.setP v).pc = s.pc := rfl
@[simp] theorem State.setP_a (s : State) (v : Byte) : (s.setP v).a = s.a := rfl
@[simp] theorem State.setP_x (s : State) (v : Byte) : (s.setP v).x = s.x := rfl
@[simp] theorem State.setP_y (s : State) (v : Byte) : (s.setP v).y = s.y := rfl
@[simp] theorem State.setP_sp (s : State) (v : Byte) : (s.setP v).sp = s.sp := rfl
@[simp] theorem State.setP_p (s : State) (v : Byte) : (s.setP v).p = v := rfl
@[simp] theorem State.setP_mem (s : State) (v : Byte) : (s.setP v).mem = s.mem := rfl
@[simp] theorem State.setP_rs (s : State) (v : Byte) : (s.setP v).rs = s.rs := rfl
@[simp] theorem State.setP_hook (s : State) (v : Byte) : (s.setP v).hook = s.hook := rfl
@[simp] theorem State.setP_calls (s : State) (v : Byte) : (s.setP v).calls = s.calls := rfl
@[simp] theorem State.setP_params (s : State) (v : Byte) : (s.setP v).params = s.params := rfl

@[simp] theorem State.setRs_pc (s : State) (v : RunState) : (s.setRs v).pc = s.pc := rfl
@[simp] theorem State.setRs_a (s : State) (v : RunState) : (s.setRs v).a = s.a := rfl
@[simp] theorem State.setRs_x (s : State) (v : RunState) : (s.setRs v).x = s.x := rfl
@[simp] theorem State.setRs_y (s : State) (v : RunState) : (s.setRs v).y = s.y := rfl
@[simp] theorem State.setRs_sp (s : State) (v : RunState) : (s.setRs v).sp = s.sp := rfl
@[simp] theorem State.setRs_p (s : State) (v : RunState) : (s.setRs v).p = s.p := rfl
@[simp] theorem State.setRs_mem (s : State) (v : RunState) : (s.setRs v).mem = s.mem := rfl
@[simp] theorem State.setRs_rs (s : State) (v : RunState) : (s.setRs v).rs = v := rfl
@[simp] theorem State.setRs_hook (s : State) (v : RunState) : (s.setRs v).hook = s.hook := rfl
@[simp] theorem State.setRs_calls (s : State) (v : RunState) : (s.setRs v).calls = s.calls := rfl
@[simp] theorem State.setRs_params (s : State) (v : RunState) : (s.setRs v).params = s.params := rfl

@[simp] theorem State.setHook_pc (s : State) (v : List Window) : (s.setHook v).pc = s.pc := rfl
@[simp] theorem State.setHook_a (s : State) (v : List Window) : (s.setHook v).a = s.a := rfl
@[simp] theorem State.setHook_x (s : State) (v : List Window) : (s.setHook v).x = s.x := rfl
@[simp] theorem State.setHook_y (s : State) (v : List Window) : (s.setHook v).y = s.y := rfl
@[simp] theorem State.setHook_sp (s : State) (v : List Window) : (s.setHook v).sp = s.sp := rfl
@[simp] theorem State.setHook_p (s : State) (v : List Window) : (s.setHook v).p = s.p := rfl
@[simp] theorem State.setHook_mem (s : State) (v : List Window) : (s.setHook v).mem = s.mem := rfl
@[simp] theorem State.setHook_rs (s : State) (v : List Window) : (s.setHook v).rs = s.rs := rfl
@[simp] theorem State.setHook_hook (s : State) (v : List Window) : (s.setHook v).hook = v := rfl
@[simp] theorem State.setHook_calls (s : State) (v : List Window) : (s.setHook v).calls = s.calls := rfl
@[simp] theorem State.setHook_params (s : State) (v : List Window) : (s.setHook v).params = s.params := rfl

@[simp] theorem State.setCalls_pc (s : State) (v : List HostCall) : (s.setCalls v).pc = s.pc := rfl
@[simp] theorem State.setCalls_a (s : State) (v : List HostCall) : (s.setCalls v).a = s.a := rfl
@[simp] theorem State.setCalls_x (s : State) (v : List HostCall) : (s.setCalls v).x = s.x := rfl
@[simp] theorem State.setCalls_y (s : State) (v : List HostCall) : (s.setCalls v).y = s.y := rfl
@[simp] theorem State.setCalls_sp (s : State) (v : List HostCall) : (s.setCalls v).sp = s.sp := rfl
@[simp] theorem State.setCalls_p (s : State) (v : List HostCall) : (s.setCalls v).p = s.p := rfl
@[simp] theorem State.setCalls_mem (s : State) (v : List HostCall) : (s.setCalls v).mem = s.mem := rfl
@[simp] theorem State.setCalls_rs (s : State) (v : List HostCall) : (s.setCalls v).rs = s.rs := rfl
@[simp] theorem State.setCalls_hook (s : State) (v : List HostCall) : (s.setCalls v).hook = s.hook := rfl
@[simp] theorem State.setCalls_calls (s : State) (v : List HostCall) : (s.setCalls v).calls = v := rfl
@[simp] theorem State.setCalls_params (s : State) (v : List HostCall) : (s.setCalls v).params = s.params := rfl

/-! ### Memory writes -/

@[simp] theorem State.writeByte_pc (s : State) (addr : Word) (v : Byte) : (s.writeByte addr v).pc = s.pc := rfl
@[simp] theorem State.writeByte_a (s : State) (addr : Word) (v : Byte) : (s.writeByte addr v).a = s.a := rfl
@[simp] theorem State.writeByte_x (s : State) (addr : Word) (v : Byte) : (s.writeByte addr v).x = s.x := rfl
@[simp] theorem State.writeByte_y (s : State) (addr : Word) (v : Byte) : (s.writeByte addr v).y = s.y := rfl
@[simp] theorem State.writeByte_sp (s : State) (addr : Word) (v : Byte) : (s.writeByte addr v).sp = s.sp := rfl
@[simp] theorem State.writeByte_p (s : State) (addr : Word) (v : Byte) : (s.writeByte addr v).p = s.p := rfl
@[simp] theorem State.writeByte_mem (s : State) (addr : Word) (v : Byte) : (s.writeByte addr v).mem = Memory.write s.mem addr.toNat v := rfl
@[simp] theorem State.writeByte_rs (s : State) (addr : Word) (v : Byte) : (s.writeByte addr v).rs = s.rs := rfl
@[simp] theorem State.writeByte_hook (s : State) (addr : Word) (v : Byte) : (s.writeByte addr v).hook = s.hook := rfl
@[simp] theorem State.writeByte_calls (s : State) (addr : Word) (v : Byte) : (s.writeByte addr v).calls = s.calls := rfl
@[simp] theorem State.writeByte_params (s : State) (addr : Word) (v : Byte) : (s.writeByte addr v).params = s.params := rfl

@[simp] theorem State.writeWord_pc (s : State) (addr w : Word) : (s.writeWord addr w).pc = s.pc := rfl
@[simp] theorem State.writeWord_a (s : State) (addr w : Word) : (s.writeWord addr w).a = s.a := rfl
@[simp] theorem State.writeWord_x (s : State) (addr w : Word) : (s.writeWord addr w).x = s.x := rfl
@[simp] theorem State.writeWord_y (s : State) (addr w : Word) : (s.writeWord addr w).y = s.y := rfl
@[simp] theorem State.writeWord_sp (s : State) (addr w : Word) : (s.writeWord addr w).sp = s.sp := rfl
@[simp] theorem State.writeWord_p (s : State) (addr w : Word) : (s.writeWord addr w).p = s.p := rfl
@[simp] theorem State.writeWord_rs (s : State) (addr w : Word) : (s.writeWord addr w).rs = s.rs := rfl
@[simp] theorem State.writeWord_hook (s : State) (addr w : Word) : (s.writeWord addr w).hook = s.hook := rfl
@[simp] theorem State.writeWord_calls (s : State) (addr w : Word) : (s.writeWord addr w).calls = s.calls := rfl
@[simp] theorem State.writeWord_params (s : State) (addr w : Word) : (s.writeWord addr w).params = s.params := rfl

/-! ### The stack -/

@[simp] theorem State.push_pc (s : State) (v : Byte) : (s.push v).pc = s.pc := rfl
@[simp] theorem State.push_a (s : State) (v : Byte) : (s.push v).a = s.a := rfl
@[simp] theorem State.push_x (s : State) (v : Byte) : (s.push v).x = s.x := rfl
@[simp] theorem State.push_y (s : State) (v : Byte) : (s.push v).y = s.y := rfl
@[simp] theorem State.push_p (s : State) (v : Byte) : (s.push v).p = s.p := rfl
@[simp] theorem State.push_rs (s : State) (v : Byte) : (s.push v).rs = s.rs := rfl
@[simp] theorem State.push_hook (s : State) (v : Byte) : (s.push v).hook = s.hook := rfl
@[simp] theorem State.push_calls (s : State) (v : Byte) : (s.push v).calls = s.calls := rfl
@[simp] theorem State.push_params (s : State) (v : Byte) : (s.push v).params = s.params := rfl

@[simp] theorem State.push_sp (s : State) (v : Byte) : (s.push v).sp = s.sp - 1 := rfl
@[simp] theorem State.push_mem (s : State) (v : Byte) :
    (s.push v).mem = Memory.write s.mem s.stackAddr.toNat v := rfl
@[simp] theorem State.pop_pc (s : State)  : (s.pop.2).pc = s.pc := rfl
@[simp] theorem State.pop_a (s : State)  : (s.pop.2).a = s.a := rfl
@[simp] theorem State.pop_x (s : State)  : (s.pop.2).x = s.x := rfl
@[simp] theorem State.pop_y (s : State)  : (s.pop.2).y = s.y := rfl
@[simp] theorem State.pop_p (s : State)  : (s.pop.2).p = s.p := rfl
@[simp] theorem State.pop_mem (s : State)  : (s.pop.2).mem = s.mem := rfl
@[simp] theorem State.pop_rs (s : State)  : (s.pop.2).rs = s.rs := rfl
@[simp] theorem State.pop_hook (s : State)  : (s.pop.2).hook = s.hook := rfl
@[simp] theorem State.pop_calls (s : State)  : (s.pop.2).calls = s.calls := rfl
@[simp] theorem State.pop_params (s : State)  : (s.pop.2).params = s.params := rfl

@[simp] theorem State.pop_sp (s : State) : s.pop.2.sp = s.sp + 1 := rfl
theorem State.pop_byte (s : State) : s.pop.1 = s.readByte (stackBase + zext16 (s.sp + 1)) := rfl

/-! ### Flags -/

@[simp] theorem State.setFlag_pc (s : State) (f : Flag) (b : Bool) : (s.setFlag f b).pc = s.pc := rfl
@[simp] theorem State.setFlag_a (s : State) (f : Flag) (b : Bool) : (s.setFlag f b).a = s.a := rfl
@[simp] theorem State.setFlag_x (s : State) (f : Flag) (b : Bool) : (s.setFlag f b).x = s.x := rfl
@[simp] theorem State.setFlag_y (s : State) (f : Flag) (b : Bool) : (s.setFlag f b).y = s.y := rfl
@[simp] theorem State.setFlag_sp (s : State) (f : Flag) (b : Bool) : (s.setFlag f b).sp = s.sp := rfl
@[simp] theorem State.setFlag_mem (s : State) (f : Flag) (b : Bool) : (s.setFlag f b).mem = s.mem := rfl
@[simp] theorem State.setFlag_rs (s : State) (f : Flag) (b : Bool) : (s.setFlag f b).rs = s.rs := rfl
@[simp] theorem State.setFlag_hook (s : State) (f : Flag) (b : Bool) : (s.setFlag f b).hook = s.hook := rfl
@[simp] theorem State.setFlag_calls (s : State) (f : Flag) (b : Bool) : (s.setFlag f b).calls = s.calls := rfl
@[simp] theorem State.setFlag_params (s : State) (f : Flag) (b : Bool) : (s.setFlag f b).params = s.params := rfl

@[simp] theorem State.setZN_pc (s : State) (v : Byte) : (s.setZN v).pc = s.pc := rfl
@[simp] theorem State.setZN_a (s : State) (v : Byte) : (s.setZN v).a = s.a := rfl
@[simp] theorem State.setZN_x (s : State) (v : Byte) : (s.setZN v).x = s.x := rfl
@[simp] theorem State.setZN_y (s : State) (v : Byte) : (s.setZN v).y = s.y := rfl
@[simp] theorem State.setZN_sp (s : State) (v : Byte) : (s.setZN v).sp = s.sp := rfl
@[simp] theorem State.setZN_mem (s : State) (v : Byte) : (s.setZN v).mem = s.mem := rfl
@[simp] theorem State.setZN_rs (s : State) (v : Byte) : (s.setZN v).rs = s.rs := rfl
@[simp] theorem State.setZN_hook (s : State) (v : Byte) : (s.setZN v).hook = s.hook := rfl
@[simp] theorem State.setZN_calls (s : State) (v : Byte) : (s.setZN v).calls = s.calls := rfl
@[simp] theorem State.setZN_params (s : State) (v : Byte) : (s.setZN v).params = s.params := rfl

@[simp] theorem State.addFlags_pc (s : State) (a m : Byte) : (s.addFlags a m).pc = s.pc := rfl
@[simp] theorem State.addFlags_a (s : State) (a m : Byte) : (s.addFlags a m).a = s.a := rfl
@[simp] theorem State.addFlags_x (s : State) (a m : Byte) : (s.addFlags a m).x = s.x := rfl
@[simp] theorem State.addFlags_y (s : State) (a m : Byte) : (s.addFlags a m).y = s.y := rfl
@[simp] theorem State.addFlags_sp (s : State) (a m : Byte) : (s.addFlags a m).sp = s.sp := rfl
@[simp] theorem State.addFlags_mem (s : State) (a m : Byte) : (s.addFlags a m).mem = s.mem := rfl
@[simp] theorem State.addFlags_rs (s : State) (a m : Byte) : (s.addFlags a m).rs = s.rs := rfl
@[simp] theorem State.addFlags_hook (s : State) (a m : Byte) : (s.addFlags a m).hook = s.hook := rfl
@[simp] theorem State.addFlags_calls (s : State) (a m : Byte) : (s.addFlags a m).calls = s.calls := rfl
@[simp] theorem State.addFlags_params (s : State) (a m : Byte) : (s.addFlags a m).params = s.params := rfl

@[simp] theorem State.subFlags_pc (s : State) (a m : Byte) : (s.subFlags a m).pc = s.pc := rfl
@[simp] theorem State.subFlags_a (s : State) (a m : Byte) : (s.subFlags a m).a = s.a := rfl
@[simp] theorem State.subFlags_x (s : State) (a m : Byte) : (s.subFlags a m).x = s.x := rfl
@[simp] theorem State.subFlags_y (s : State) (a m : Byte) : (s.subFlags a m).y = s.y := rfl
@[simp] theorem State.subFlags_sp (s : State) (a m : Byte) : (s.subFlags a m).sp = s.sp := rfl
@[simp] theorem State.subFlags_mem (s : State) (a m : Byte) : (s.subFlags a m).mem = s.mem := rfl
@[simp] theorem State.subFlags_rs (s : State) (a m : Byte) : (s.subFlags a m).rs = s.rs := rfl
@[simp] theorem State.subFlags_hook (s : State) (a m : Byte) : (s.subFlags a m).hook = s.hook := rfl
@[simp] theorem State.subFlags_calls (s : State) (a m : Byte) : (s.subFlags a m).calls = s.calls := rfl
@[simp] theorem State.subFlags_params (s : State) (a m : Byte) : (s.subFlags a m).params = s.params := rfl

@[simp] theorem State.cmpFlags_pc (s : State) (r m : Byte) : (s.cmpFlags r m).pc = s.pc := rfl
@[simp] theorem State.cmpFlags_a (s : State) (r m : Byte) : (s.cmpFlags r m).a = s.a := rfl
@[simp] theorem State.cmpFlags_x (s : State) (r m : Byte) : (s.cmpFlags r m).x = s.x := rfl
@[simp] theorem State.cmpFlags_y (s : State) (r m : Byte) : (s.cmpFlags r m).y = s.y := rfl
@[simp] theorem State.cmpFlags_sp (s : State) (r m : Byte) : (s.cmpFlags r m).sp = s.sp := rfl
@[simp] theorem State.cmpFlags_mem (s : State) (r m : Byte) : (s.cmpFlags r m).mem = s.mem := rfl
@[simp] theorem State.cmpFlags_rs (s : State) (r m : Byte) : (s.cmpFlags r m).rs = s.rs := rfl
@[simp] theorem State.cmpFlags_hook (s : State) (r m : Byte) : (s.cmpFlags r m).hook = s.hook := rfl
@[simp] theorem State.cmpFlags_calls (s : State) (r m : Byte) : (s.cmpFlags r m).calls = s.calls := rfl
@[simp] theorem State.cmpFlags_params (s : State) (r m : Byte) : (s.cmpFlags r m).params = s.params := rfl

@[simp] theorem State.cpxFlags_pc (s : State) (x m : Byte) : (s.cpxFlags x m).pc = s.pc := rfl
@[simp] theorem State.cpxFlags_a (s : State) (x m : Byte) : (s.cpxFlags x m).a = s.a := rfl
@[simp] theorem State.cpxFlags_x (s : State) (x m : Byte) : (s.cpxFlags x m).x = s.x := rfl
@[simp] theorem State.cpxFlags_y (s : State) (x m : Byte) : (s.cpxFlags x m).y = s.y := rfl
@[simp] theorem State.cpxFlags_sp (s : State) (x m : Byte) : (s.cpxFlags x m).sp = s.sp := rfl
@[simp] theorem State.cpxFlags_mem (s : State) (x m : Byte) : (s.cpxFlags x m).mem = s.mem := rfl
@[simp] theorem State.cpxFlags_rs (s : State) (x m : Byte) : (s.cpxFlags x m).rs = s.rs := rfl
@[simp] theorem State.cpxFlags_hook (s : State) (x m : Byte) : (s.cpxFlags x m).hook = s.hook := rfl
@[simp] theorem State.cpxFlags_calls (s : State) (x m : Byte) : (s.cpxFlags x m).calls = s.calls := rfl
@[simp] theorem State.cpxFlags_params (s : State) (x m : Byte) : (s.cpxFlags x m).params = s.params := rfl

/-! ### Reads see only memory -/

@[simp] theorem State.readByte_setPc (s : State) (v : Word) (addr : Word) :
    (s.setPc v).readByte addr = s.readByte addr := rfl
@[simp] theorem State.readByte_setA (s : State) (v : Byte) (addr : Word) :
    (s.setA v).readByte addr = s.readByte addr := rfl
@[simp] theorem State.readByte_setX (s : State) (v : Byte) (addr : Word) :
    (s.setX v).readByte addr = s.readByte addr := rfl
@[simp] theorem State.readByte_setY (s : State) (v : Byte) (addr : Word) :
    (s.setY v).readByte addr = s.readByte addr := rfl
@[simp] theorem State.readByte_setSp (s : State) (v : Byte) (addr : Word) :
    (s.setSp v).readByte addr = s.readByte addr := rfl
@[simp] theorem State.readByte_setP (s : State) (v : Byte) (addr : Word) :
    (s.setP v).readByte addr = s.readByte addr := rfl
@[simp] theorem State.readByte_setRs (s : State) (v : RunState) (addr : Word) :
    (s.setRs v).readByte addr = s.readByte addr := rfl
@[simp] theorem State.readByte_setHook (s : State) (v : List Window) (addr : Word) :
    (s.setHook v).readByte addr = s.readByte addr := rfl
@[simp] theorem State.readByte_setCalls (s : State) (v : List HostCall) (addr : Word) :
    (s.setCalls v).readByte addr = s.readByte addr := rfl
@[simp] theorem State.readByte_setFlag (s : State) (f : Flag) (b : Bool) (addr : Word) :
    (s.setFlag f b).readByte addr = s.readByte addr := rfl
@[simp] theorem State.readByte_setZN (s : State) (v : Byte) (addr : Word) :
    (s.setZN v).readByte addr = s.readByte addr := rfl
@[simp] theorem State.readByte_pop (s : State)  (addr : Word) :
    (s.pop.2).readByte addr = s.readByte addr := rfl
@[simp] theorem State.readWord_setPc (s : State) (v : Word) (addr : Word) :
    (s.setPc v).readWord addr = s.readWord addr := rfl
@[simp] theorem State.readWord_setA (s : State) (v : Byte) (addr : Word) :
    (s.setA v).readWord addr = s.readWord addr := rfl
@[simp] theorem State.readWord_setX (s : State) (v : Byte) (addr : Word) :
    (s.setX v).readWord addr = s.readWord addr := rfl
@[simp] theorem State.readWord_setY (s : State) (v : Byte) (addr : Word) :
    (s.setY v).readWord addr = s.readWord addr := rfl
@[simp] theorem State.readWord_setSp (s : State) (v : Byte) (addr : Word) :
    (s.setSp v).readWord addr = s.readWord addr := rfl
@[simp] theorem State.readWord_setP (s : State) (v : Byte) (addr : Word) :
    (s.setP v).readWord addr = s.readWord addr := rfl
@[simp] theorem State.readWord_setRs (s : State) (v : RunState) (addr : Word) :
    (s.setRs v).readWord addr = s.readWord addr := rfl
@[simp] theorem State.readWord_setHook (s : State) (v : List Window) (addr : Word) :
    (s.setHook v).readWord addr = s.readWord addr := rfl
@[simp] theorem State.readWord_setCalls (s : State) (v : List HostCall) (addr : Word) :
    (s.setCalls v).readWord addr = s.readWord addr := rfl

/-! ### Raising an error (R200) -/

@[simp] theorem State.raise_pc (s : State) (e : FatalError) : (raise e s).pc = s.pc := rfl
@[simp] theorem State.raise_a (s : State) (e : FatalError) : (raise e s).a = s.a := rfl
@[simp] theorem State.raise_x (s : State) (e : FatalError) : (raise e s).x = s.x := rfl
@[simp] theorem State.raise_y (s : State) (e : FatalError) : (raise e s).y = s.y := rfl
@[simp] theorem State.raise_sp (s : State) (e : FatalError) : (raise e s).sp = s.sp := rfl
@[simp] theorem State.raise_p (s : State) (e : FatalError) : (raise e s).p = s.p := rfl
@[simp] theorem State.raise_mem (s : State) (e : FatalError) : (raise e s).mem = s.mem := rfl
@[simp] theorem State.raise_rs (s : State) (e : FatalError) : (raise e s).rs = .faulted e := rfl
@[simp] theorem State.raise_hook (s : State) (e : FatalError) : (raise e s).hook = s.hook := rfl
@[simp] theorem State.raise_calls (s : State) (e : FatalError) : (raise e s).calls = s.calls := rfl
@[simp] theorem State.raise_params (s : State) (e : FatalError) : (raise e s).params = s.params := rfl

end Sys2Proof.Machine
end

