-- ==== Sys2Proof/Laws/Flags.lean ====
section
/-! SUPPORT. The flag unit: a flag write sets that flag and leaves the other flags and bits 5 to 2 of P as they are. -/

namespace Sys2Proof.Machine

@[simp] theorem State.flag_setFlag_same (s : State) (f : Flag) (b : Bool) : (s.setFlag f b).flag f = b := by
  cases f <;> cases b <;> simp [State.flag, State.setFlag, Flag.mask, Flag.bit]

theorem State.flag_setFlag_other (s : State) {f g : Flag} (b : Bool) (h : g ≠ f) :
    (s.setFlag f b).flag g = s.flag g := by
  cases f <;> cases g <;> cases b <;> first | exact absurd rfl h | simp [State.flag, State.setFlag, Flag.mask, Flag.bit]

@[simp] theorem State.reservedBits_setFlag (s : State) (f : Flag) (b : Bool) :
    (s.setFlag f b).reservedBits = s.reservedBits := by
  have hz : ∀ (f : Flag), f.mask.extractLsb' 2 4 = 0#4 := by intro f; cases f <;> decide
  have ho : ∀ (f : Flag), (~~~f.mask).extractLsb' 2 4 = BitVec.allOnes 4 := by intro f; cases f <;> decide
  cases b
  · simp only [State.reservedBits, State.setFlag, Bool.false_eq_true, if_false, State.setP_p, BitVec.extractLsb'_and, ho]
    exact BitVec.and_allOnes
  · simp [State.reservedBits, State.setFlag, BitVec.extractLsb'_or, hz]

@[simp] theorem State.flag_setA (s : State) (v : Byte) (f : Flag) : (s.setA v).flag f = s.flag f := rfl
@[simp] theorem State.flag_setX (s : State) (v : Byte) (f : Flag) : (s.setX v).flag f = s.flag f := rfl
@[simp] theorem State.flag_setY (s : State) (v : Byte) (f : Flag) : (s.setY v).flag f = s.flag f := rfl
@[simp] theorem State.flag_setPc (s : State) (v : Word) (f : Flag) : (s.setPc v).flag f = s.flag f := rfl
@[simp] theorem State.flag_writeByte (s : State) (addr : Word) (v : Byte) (f : Flag) :
    (s.writeByte addr v).flag f = s.flag f := rfl

/-- What `setZN` leaves in each flag. -/
theorem State.flag_setZN (s : State) (v : Byte) (f : Flag) :
    (s.setZN v).flag f = match f with
      | .z => decide (v = 0)
      | .n => v.msb
      | .c => s.flag .c
      | .v => s.flag .v := by
  cases f <;> simp [State.setZN, State.flag_setFlag_other]

@[simp] theorem State.reservedBits_setZN (s : State) (v : Byte) : (s.setZN v).reservedBits = s.reservedBits := by
  simp [State.setZN]

end Sys2Proof.Machine
end

