-- ==== Sys2Proof/Laws/Memory.lean ====
section
/-! SUPPORT. The laws of memory: a read after a write, every other cell unchanged, and the canonical form kept by every
operation that writes memory. -/

namespace Sys2Proof.Machine

/-! ### One cell -/

theorem Memory.read_nil (addr : Nat) : Memory.read [] addr = 0 := rfl

theorem Memory.read_cons (k : Nat) (v : Byte) (rest : Memory) (addr : Nat) :
    Memory.read ((k, v) :: rest) addr = if k = addr then v else Memory.read rest addr := rfl

/-- A canonical memory lists nothing below its bound. -/
theorem Memory.read_below {m : Memory} {lo addr : Nat} (h : Memory.wfFrom lo m = true) (ha : addr < lo) :
    Memory.read m addr = 0 := by
  induction m generalizing lo with
  | nil => rfl
  | cons kv rest ih =>
    obtain ⟨k, v⟩ := kv
    simp only [Memory.wfFrom, Bool.and_eq_true, decide_eq_true_eq] at h
    rw [Memory.read_cons, if_neg (by omega), ih h.2 (by omega)]

/-- A canonical memory is canonical from any lower bound. -/
theorem Memory.wfFrom_mono {m : Memory} {lo lo' : Nat} (h : Memory.wfFrom lo m = true) (hle : lo' ≤ lo) :
    Memory.wfFrom lo' m = true := by
  cases m with
  | nil => rfl
  | cons kv rest =>
    obtain ⟨k, v⟩ := kv
    simp only [Memory.wfFrom, Bool.and_eq_true, decide_eq_true_eq] at h ⊢
    exact ⟨⟨⟨by omega, h.1.1.2⟩, h.1.2⟩, h.2⟩

theorem Memory.read_write_other (m : Memory) {addr addr' : Nat} (v : Byte) (h : addr' ≠ addr) :
    Memory.read (Memory.write m addr v) addr' = Memory.read m addr' := by
  induction m with
  | nil => simp only [Memory.write]; split <;> simp [Memory.read, h.symm]
  | cons kv rest ih =>
    obtain ⟨k, w⟩ := kv
    simp only [Memory.write]
    split_ifs with h1 h2 h3 h4
    · rfl
    · rw [Memory.read_cons, if_neg h.symm]
    · rw [Memory.read_cons, if_neg (by omega)]
    · rw [Memory.read_cons, Memory.read_cons, if_neg h.symm, if_neg (by omega)]
    · rw [Memory.read_cons, Memory.read_cons, ih]

theorem Memory.read_write_same_from {m : Memory} {lo : Nat} (addr : Nat) (v : Byte) (h : Memory.wfFrom lo m = true) :
    Memory.read (Memory.write m addr v) addr = v := by
  induction m generalizing lo with
  | nil => simp only [Memory.write]; split <;> simp [Memory.read, *]
  | cons kv rest ih =>
    obtain ⟨k, w⟩ := kv
    simp only [Memory.wfFrom, Bool.and_eq_true, decide_eq_true_eq] at h
    simp only [Memory.write]
    split_ifs with h1 h2 h3 h4
    · rw [Memory.read_cons, if_neg (by omega), Memory.read_below h.2 (by omega), h2]
    · rw [Memory.read_cons, if_pos rfl]
    · rw [Memory.read_below h.2 (by omega), h4]
    · rw [Memory.read_cons, if_pos rfl]
    · rw [Memory.read_cons, if_neg (by omega), ih h.2]

theorem Memory.wfFrom_write {m : Memory} {lo addr : Nat} (v : Byte) (h : Memory.wfFrom lo m = true) (hlo : lo ≤ addr)
    (ha : addr < 65536) : Memory.wfFrom lo (Memory.write m addr v) = true := by
  induction m generalizing lo with
  | nil =>
    simp only [Memory.write]
    split_ifs with h0
    · rfl
    · simp only [Memory.wfFrom, Bool.and_eq_true, decide_eq_true_eq]
      exact ⟨⟨⟨hlo, ha⟩, h0⟩, trivial⟩
  | cons kv rest ih =>
    obtain ⟨k, w⟩ := kv
    have h' := h
    simp only [Memory.wfFrom, Bool.and_eq_true, decide_eq_true_eq] at h
    simp only [Memory.write]
    split_ifs with h1 h2 h3 h4
    · exact h'
    · simp only [Memory.wfFrom, Bool.and_eq_true, decide_eq_true_eq]
      exact ⟨⟨⟨hlo, ha⟩, h2⟩, ⟨⟨⟨by omega, h.1.1.2⟩, h.1.2⟩, h.2⟩⟩
    · exact Memory.wfFrom_mono h.2 (by omega)
    · simp only [Memory.wfFrom, Bool.and_eq_true, decide_eq_true_eq]
      exact ⟨⟨⟨hlo, ha⟩, h4⟩, h3 ▸ h.2⟩
    · simp only [Memory.wfFrom, Bool.and_eq_true, decide_eq_true_eq]
      exact ⟨h.1, ih h.2 (by omega)⟩

theorem Memory.wf_write {m : Memory} (addr : Word) (v : Byte) (h : Memory.wf m = true) :
    Memory.wf (Memory.write m addr.toNat v) = true :=
  Memory.wfFrom_write v h (Nat.zero_le _) addr.isLt

/-! ### Through the state -/

theorem State.readByte_writeByte_same {s : State} (addr : Word) (v : Byte) (h : Memory.wf s.mem = true) :
    (s.writeByte addr v).readByte addr = v :=
  Memory.read_write_same_from addr.toNat v h

theorem State.readByte_writeByte_other (s : State) {addr addr' : Word} (v : Byte) (h : addr' ≠ addr) :
    (s.writeByte addr v).readByte addr' = s.readByte addr' :=
  Memory.read_write_other s.mem v (fun e => h (BitVec.eq_of_toNat_eq e))

theorem State.wf_writeByte {s : State} (addr : Word) (v : Byte) (h : Memory.wf s.mem = true) :
    Memory.wf (s.writeByte addr v).mem = true :=
  Memory.wf_write addr v h

theorem State.wf_writeWord {s : State} (addr w : Word) (h : Memory.wf s.mem = true) :
    Memory.wf (s.writeWord addr w).mem = true :=
  State.wf_writeByte _ _ (State.wf_writeByte _ _ h)

theorem State.wf_writeBytes {s : State} (addr : Word) (bytes : List Byte) (h : Memory.wf s.mem = true) :
    Memory.wf (s.writeBytes addr bytes).mem = true := by
  induction bytes generalizing s addr with
  | nil => exact h
  | cons v rest ih => exact ih _ (State.wf_writeByte _ _ h)

theorem State.wf_push {s : State} (v : Byte) (h : Memory.wf s.mem = true) : Memory.wf (s.push v).mem = true :=
  Memory.wf_write _ _ h

/-- Writing bytes changes memory only. -/
theorem State.writeBytes_frame (s : State) (addr : Word) (bytes : List Byte) :
    s.writeBytes addr bytes = { s with mem := (s.writeBytes addr bytes).mem } := by
  induction bytes generalizing s addr with
  | nil => rfl
  | cons v rest ih =>
    simp only [State.writeBytes]
    rw [ih]
    simp

/-- What a host action can do: RS, the parameters and the host's own plans stay, and the canonical form is kept. -/
theorem performAction_frame (act : HostAction) (s : State) :
    (performAction act s).rs = s.rs ∧ (performAction act s).params = s.params ∧
    (performAction act s).hook = s.hook ∧ (performAction act s).calls = s.calls ∧
    (Memory.wf s.mem = true → Memory.wf (performAction act s).mem = true) := by
  cases act with
  | load bytes =>
    simp only [performAction, loadAction]
    split
    · rw [State.writeBytes_frame]
      exact ⟨rfl, rfl, rfl, rfl, fun h => State.wf_writeWord _ _ (State.wf_writeBytes _ _ h)⟩
    · exact ⟨rfl, rfl, rfl, rfl, id⟩
  | memWrite addr v => exact ⟨rfl, rfl, rfl, rfl, State.wf_writeByte addr v⟩
  | memWriteU16 addr w => exact ⟨rfl, rfl, rfl, rfl, State.wf_writeWord addr w⟩
  | writeReg w => cases w <;> exact ⟨rfl, rfl, rfl, rfl, id⟩
  | reset => exact ⟨rfl, rfl, rfl, rfl, id⟩
  | memRead _ => exact ⟨rfl, rfl, rfl, rfl, id⟩
  | memReadU16 _ => exact ⟨rfl, rfl, rfl, rfl, id⟩
  | readReg _ => exact ⟨rfl, rfl, rfl, rfl, id⟩

end Sys2Proof.Machine
end

