-- ==== Sys2Proof/Laws/Operands.lean ====
section
/-! SUPPORT. What the resolver and a rule that calls it can answer. -/

namespace Sys2Proof.Machine

/-- The resolver serves every mode but two. -/
theorem ea_ok {m : Mode} (s : State) (ha : m ≠ .accumulator) (hn : m ≠ .noneAddressing) :
    ∃ addr, ea m s = .ok addr := by
  cases m <;> first | exact absurd rfl ha | exact absurd rfl hn | exact ⟨_, rfl⟩

theorem withEa_of_ok {m : Mode} {s : State} {rest : Word → State} {addr : Word} (h : ea m s = .ok addr) :
    withEa m s rest = .next (rest addr) := by
  simp [withEa, h]

/-- Everything a rule that resolves an address can answer. -/
theorem withEa_cases {m : Mode} {s t : State} {rest : Word → State} (h : withEa m s rest = .next t) :
    (∃ addr, ea m s = .ok addr ∧ t = rest addr) ∨ (∃ e, ea m s = .error e ∧ t = raise e s) := by
  unfold withEa at h
  cases he : ea m s with
  | ok addr => rw [he] at h; exact .inl ⟨addr, rfl, by injection h with h; exact h.symm⟩
  | error e => rw [he] at h; exact .inr ⟨e, rfl, by injection h with h; exact h.symm⟩

/-- A rule that resolves an address in a served mode answers the rest of the rule at that address. -/
theorem withEa_served {m : Mode} (s : State) (rest : Word → State) (ha : m ≠ .accumulator) (hn : m ≠ .noneAddressing) :
    ∃ addr, ea m s = .ok addr ∧ withEa m s rest = .next (rest addr) := by
  obtain ⟨addr, h⟩ := ea_ok s ha hn
  exact ⟨addr, h, withEa_of_ok h⟩

end Sys2Proof.Machine
end

