-- ==== Sys2Proof/Laws/Exec.lean ====
section
/-! SUPPORT. What an instruction can do at all, said once for each shared operation and then for `exec`: it always answers a
next state, never touches the host's plans or the parameters, and keeps memory in its canonical form. -/

namespace Sys2Proof.Machine

/-- What holds between the state an instruction runs in and the one it answers. -/
structure Kept (s t : State) : Prop where
  hook : t.hook = s.hook
  calls : t.calls = s.calls
  params : t.params = s.params
  wf : Memory.wf s.mem = true → Memory.wf t.mem = true

theorem Kept.of_mem_eq {s t : State} (hook : t.hook = s.hook) (calls : t.calls = s.calls) (params : t.params = s.params)
    (mem : t.mem = s.mem) : Kept s t :=
  ⟨hook, calls, params, fun h => mem ▸ h⟩

theorem Kept.writeByte {s t : State} (addr : Word) (v : Byte) (hook : t.hook = s.hook) (calls : t.calls = s.calls)
    (params : t.params = s.params) (mem : t.mem = (s.writeByte addr v).mem) : Kept s t :=
  ⟨hook, calls, params, fun h => mem ▸ State.wf_writeByte addr v h⟩

/-- `i` answers a next state from `s`, and `Kept` holds of it. -/
def AnswersKept (r : Result) (s : State) : Prop := ∃ t, r = .next t ∧ Kept s t

theorem withEa_kept {m : Mode} {s : State} {rest : Word → State} (h : ∀ addr, Kept s (rest addr)) :
    AnswersKept (withEa m s rest) s := by
  unfold withEa
  cases ea m s with
  | ok addr => exact ⟨_, rfl, h addr⟩
  | error e => exact ⟨_, rfl, .of_mem_eq rfl rfl rfl rfl⟩

theorem adc_kept (m : Mode) (s : State) : AnswersKept (adc m s) s :=
  withEa_kept fun _ => .of_mem_eq rfl rfl rfl rfl

theorem sbc_kept (m : Mode) (s : State) : AnswersKept (sbc m s) s :=
  withEa_kept fun _ => .of_mem_eq rfl rfl rfl rfl

theorem andA_kept (m : Mode) (s : State) : AnswersKept (andA m s) s :=
  withEa_kept fun _ => .of_mem_eq rfl rfl rfl rfl

theorem aslMem_kept (m : Mode) (s : State) : AnswersKept (aslMem m s) s :=
  withEa_kept fun addr => .writeByte addr (shl1 (s.readByte addr)) rfl rfl rfl rfl

theorem cmp_kept (m : Mode) (s : State) : AnswersKept (cmp m s) s :=
  withEa_kept fun _ => .of_mem_eq rfl rfl rfl rfl

theorem cpx_kept (m : Mode) (s : State) : AnswersKept (cpx m s) s :=
  withEa_kept fun _ => .of_mem_eq rfl rfl rfl rfl

theorem lda_kept (m : Mode) (s : State) : AnswersKept (lda m s) s :=
  withEa_kept fun _ => .of_mem_eq rfl rfl rfl rfl

theorem ldx_kept (m : Mode) (s : State) : AnswersKept (ldx m s) s :=
  withEa_kept fun _ => .of_mem_eq rfl rfl rfl rfl

theorem ldy_kept (m : Mode) (s : State) : AnswersKept (ldy m s) s :=
  withEa_kept fun _ => .of_mem_eq rfl rfl rfl rfl

theorem store_kept (m : Mode) (v : Byte) (s : State) : AnswersKept (store m v s) s :=
  withEa_kept fun addr => .writeByte addr v rfl rfl rfl rfl

theorem branch_kept (m : Mode) (cond : Bool) (s : State) : AnswersKept (branch m cond s) s :=
  withEa_kept fun _ => by dsimp only; split <;> exact .of_mem_eq rfl rfl rfl rfl

theorem pushReturn_kept (s : State) : Kept s (pushReturn s) :=
  ⟨rfl, rfl, rfl, fun h => State.wf_push _ (State.wf_push _ h)⟩

theorem execJsr_kept (s : State) : AnswersKept (execJsr s) s := by
  obtain ⟨addr, -, h⟩ := withEa_served (m := Instr.mode .jsr) (pushReturn s) (fun addr => (pushReturn s).setPc addr)
    (by decide) (by decide)
  have k := pushReturn_kept s
  exact ⟨_, h, k.hook, k.calls, k.params, k.wf⟩

/-- Every instruction answers a next state and keeps the host's plans, the parameters and the canonical form. -/
theorem exec_kept (i : Instr) (s : State) : AnswersKept (exec i s) s := by
  cases i with
  | brk => exact ⟨_, rfl, .of_mem_eq rfl rfl rfl rfl⟩
  | aslZeroPage => exact exec_aslZeroPage s ▸ aslMem_kept _ s
  | aslAccumulator => exact ⟨_, rfl, .of_mem_eq rfl rfl rfl rfl⟩
  | aslAbsolute => exact exec_aslAbsolute s ▸ aslMem_kept _ s
  | bpl => exact exec_bpl s ▸ branch_kept _ _ s
  | aslZeroPageX => exact exec_aslZeroPageX s ▸ aslMem_kept _ s
  | clc => exact ⟨_, rfl, .of_mem_eq rfl rfl rfl rfl⟩
  | aslAbsoluteX => exact exec_aslAbsoluteX s ▸ aslMem_kept _ s
  | jsr => exact execJsr_kept s
  | andIndirectX => exact exec_andIndirectX s ▸ andA_kept _ s
  | andZeroPage => exact exec_andZeroPage s ▸ andA_kept _ s
  | andImmediate => exact exec_andImmediate s ▸ andA_kept _ s
  | andAbsolute => exact exec_andAbsolute s ▸ andA_kept _ s
  | andIndirectY => exact exec_andIndirectY s ▸ andA_kept _ s
  | andZeroPageX => exact exec_andZeroPageX s ▸ andA_kept _ s
  | sec => exact ⟨_, rfl, .of_mem_eq rfl rfl rfl rfl⟩
  | andAbsoluteY => exact exec_andAbsoluteY s ▸ andA_kept _ s
  | andAbsoluteX => exact exec_andAbsoluteX s ▸ andA_kept _ s
  | rts => exact ⟨_, rfl, .of_mem_eq rfl rfl rfl rfl⟩
  | adcIndirectX => exact exec_adcIndirectX s ▸ adc_kept _ s
  | adcZeroPage => exact exec_adcZeroPage s ▸ adc_kept _ s
  | adcImmediate => exact exec_adcImmediate s ▸ adc_kept _ s
  | adcAbsolute => exact exec_adcAbsolute s ▸ adc_kept _ s
  | adcIndirectY => exact exec_adcIndirectY s ▸ adc_kept _ s
  | adcZeroPageX => exact exec_adcZeroPageX s ▸ adc_kept _ s
  | adcAbsoluteY => exact exec_adcAbsoluteY s ▸ adc_kept _ s
  | adcAbsoluteX => exact exec_adcAbsoluteX s ▸ adc_kept _ s
  | staIndirectX => exact exec_staIndirectX s ▸ store_kept _ _ s
  | styZeroPage => exact exec_styZeroPage s ▸ store_kept _ _ s
  | staZeroPage => exact exec_staZeroPage s ▸ store_kept _ _ s
  | stxZeroPage => exact exec_stxZeroPage s ▸ store_kept _ _ s
  | txa => exact ⟨_, rfl, .of_mem_eq rfl rfl rfl rfl⟩
  | styAbsolute => exact exec_styAbsolute s ▸ store_kept _ _ s
  | staAbsolute => exact exec_staAbsolute s ▸ store_kept _ _ s
  | stxAbsolute => exact exec_stxAbsolute s ▸ store_kept _ _ s
  | bcc => exact exec_bcc s ▸ branch_kept _ _ s
  | staIndirectY => exact exec_staIndirectY s ▸ store_kept _ _ s
  | styZeroPageX => exact exec_styZeroPageX s ▸ store_kept _ _ s
  | staZeroPageX => exact exec_staZeroPageX s ▸ store_kept _ _ s
  | stxZeroPageY => exact exec_stxZeroPageY s ▸ store_kept _ _ s
  | staAbsoluteY => exact exec_staAbsoluteY s ▸ store_kept _ _ s
  | staAbsoluteX => exact exec_staAbsoluteX s ▸ store_kept _ _ s
  | ldyImmediate => exact exec_ldyImmediate s ▸ ldy_kept _ s
  | ldaIndirectX => exact exec_ldaIndirectX s ▸ lda_kept _ s
  | ldxImmediate => exact exec_ldxImmediate s ▸ ldx_kept _ s
  | ldyZeroPage => exact exec_ldyZeroPage s ▸ ldy_kept _ s
  | ldaZeroPage => exact exec_ldaZeroPage s ▸ lda_kept _ s
  | ldxZeroPage => exact exec_ldxZeroPage s ▸ ldx_kept _ s
  | ldaImmediate => exact exec_ldaImmediate s ▸ lda_kept _ s
  | tax => exact ⟨_, rfl, .of_mem_eq rfl rfl rfl rfl⟩
  | ldyAbsolute => exact exec_ldyAbsolute s ▸ ldy_kept _ s
  | ldaAbsolute => exact exec_ldaAbsolute s ▸ lda_kept _ s
  | ldxAbsolute => exact exec_ldxAbsolute s ▸ ldx_kept _ s
  | bcs => exact exec_bcs s ▸ branch_kept _ _ s
  | ldaIndirectY => exact exec_ldaIndirectY s ▸ lda_kept _ s
  | ldyZeroPageX => exact exec_ldyZeroPageX s ▸ ldy_kept _ s
  | ldaZeroPageX => exact exec_ldaZeroPageX s ▸ lda_kept _ s
  | ldxZeroPageY => exact exec_ldxZeroPageY s ▸ ldx_kept _ s
  | ldaAbsoluteY => exact exec_ldaAbsoluteY s ▸ lda_kept _ s
  | ldyAbsoluteX => exact exec_ldyAbsoluteX s ▸ ldy_kept _ s
  | ldaAbsoluteX => exact exec_ldaAbsoluteX s ▸ lda_kept _ s
  | ldxAbsoluteY => exact exec_ldxAbsoluteY s ▸ ldx_kept _ s
  | cmpIndirectX => exact exec_cmpIndirectX s ▸ cmp_kept _ s
  | cmpZeroPage => exact exec_cmpZeroPage s ▸ cmp_kept _ s
  | cmpImmediate => exact exec_cmpImmediate s ▸ cmp_kept _ s
  | dex => exact ⟨_, rfl, .of_mem_eq rfl rfl rfl rfl⟩
  | cmpAbsolute => exact exec_cmpAbsolute s ▸ cmp_kept _ s
  | bne => exact exec_bne s ▸ branch_kept _ _ s
  | cmpIndirectY => exact exec_cmpIndirectY s ▸ cmp_kept _ s
  | cmpZeroPageX => exact exec_cmpZeroPageX s ▸ cmp_kept _ s
  | cmpAbsoluteY => exact exec_cmpAbsoluteY s ▸ cmp_kept _ s
  | cmpAbsoluteX => exact exec_cmpAbsoluteX s ▸ cmp_kept _ s
  | cpxImmediate => exact exec_cpxImmediate s ▸ cpx_kept _ s
  | sbcIndirectX => exact exec_sbcIndirectX s ▸ sbc_kept _ s
  | cpxZeroPage => exact exec_cpxZeroPage s ▸ cpx_kept _ s
  | sbcZeroPage => exact exec_sbcZeroPage s ▸ sbc_kept _ s
  | inx => exact ⟨_, rfl, .of_mem_eq rfl rfl rfl rfl⟩
  | sbcImmediate => exact exec_sbcImmediate s ▸ sbc_kept _ s
  | cpxAbsolute => exact exec_cpxAbsolute s ▸ cpx_kept _ s
  | sbcAbsolute => exact exec_sbcAbsolute s ▸ sbc_kept _ s
  | beq => exact exec_beq s ▸ branch_kept _ _ s
  | sbcIndirectY => exact exec_sbcIndirectY s ▸ sbc_kept _ s
  | sbcZeroPageX => exact exec_sbcZeroPageX s ▸ sbc_kept _ s
  | sbcAbsoluteY => exact exec_sbcAbsoluteY s ▸ sbc_kept _ s
  | sbcAbsoluteX => exact exec_sbcAbsoluteX s ▸ sbc_kept _ s

end Sys2Proof.Machine
end

