-- ==== Sys2Proof/Laws/Cycle.lean ====
section
/-! SUPPORT. What the host window, a host call and one step can do, each said once. -/

namespace Sys2Proof.Machine

/-- A window's actions keep the run state, the parameters, the host's plans and the canonical form. -/
theorem foldl_performAction_frame (acts : List HostAction) (s : State) :
    (acts.foldl (fun t act => performAction act t) s).rs = s.rs ∧
    (acts.foldl (fun t act => performAction act t) s).params = s.params ∧
    (acts.foldl (fun t act => performAction act t) s).hook = s.hook ∧
    (acts.foldl (fun t act => performAction act t) s).calls = s.calls ∧
    (Memory.wf s.mem = true → Memory.wf (acts.foldl (fun t act => performAction act t) s).mem = true) := by
  induction acts generalizing s with
  | nil => exact ⟨rfl, rfl, rfl, rfl, id⟩
  | cons act rest ih =>
    obtain ⟨h1, h2, h3, h4, h5⟩ := ih (performAction act s)
    obtain ⟨g1, g2, g3, g4, g5⟩ := performAction_frame act s
    exact ⟨h1.trans g1, h2.trans g2, h3.trans g3, h4.trans g4, fun h => h5 (g5 h)⟩

/-- A window leaves the run state as it was or Stopped, and keeps the parameters, the calls and the canonical form. -/
theorem openWindow_frame (w : Window) (s : State) :
    ((openWindow w s).rs = s.rs ∨ (openWindow w s).rs = .stopped) ∧ (openWindow w s).params = s.params ∧
    (openWindow w s).calls = s.calls ∧ (Memory.wf s.mem = true → Memory.wf (openWindow w s).mem = true) := by
  obtain ⟨h1, h2, -, h4, h5⟩ := foldl_performAction_frame w.actions s
  unfold openWindow
  dsimp only
  split
  · exact ⟨.inl h1, h2, h4, h5⟩
  · exact ⟨.inr rfl, h2, h4, h5⟩

/-- The host window leaves the run state as it was or Stopped, and keeps the parameters, the calls and the canonical form. -/
theorem hostWindow_frame (s : State) :
    ((hostWindow s).rs = s.rs ∨ (hostWindow s).rs = .stopped) ∧ (hostWindow s).params = s.params ∧
    (hostWindow s).calls = s.calls ∧ (Memory.wf s.mem = true → Memory.wf (hostWindow s).mem = true) := by
  unfold hostWindow
  cases s.hook with
  | nil => exact ⟨.inl rfl, rfl, rfl, id⟩
  | cons w rest => exact openWindow_frame w (s.setHook rest)

/-- A register can be read in every run state (R210). -/
@[simp] theorem callReply_readReg (r : Reg) (s : State) : callReply (.act (.readReg r)) s = readRegister r s := by
  unfold callReply
  cases s.rs <;> rfl

@[simp] theorem finish_running {pcBefore : Word} {length : Nat} {s : State} (h : s.rs = .running) :
    finish pcBefore length s = advancePc pcBefore length s := by
  simp [finish, h]

@[simp] theorem finish_not_running {pcBefore : Word} {length : Nat} {s : State} (h : s.rs ≠ .running) :
    finish pcBefore length s = s := by
  unfold finish
  cases hr : s.rs with
  | running => exact absurd hr h
  | stopped => rfl
  | faulted e => rfl

/-- The end of a step changes PC only. -/
theorem finish_frame (pcBefore : Word) (length : Nat) (s : State) :
    finish pcBefore length s = { s with pc := (finish pcBefore length s).pc } := by
  by_cases h : s.rs = .running
  · rw [finish_running h]
    unfold advancePc
    split <;> rfl
  · rw [finish_not_running h]

/-- While no run is in progress a step is the host's next call. -/
theorem step_of_not_running {s : State} (h : s.rs ≠ .running) : step s = .next (idle s) := by
  unfold step machineStep
  cases hs : s.rs with
  | running => exact absurd hs h
  | stopped => rfl
  | faulted e => rfl

/-- A hook that stops the run ends the step before the fetch. -/
theorem step_of_window_stopped {s : State} (h : s.rs = .running) (hw : (hostWindow s).rs = .stopped) :
    step s = .next (hostWindow s) := by
  simp [step, machineStep, stepRunning, h, hw]

/-- Otherwise the step is one instruction from the state after the window. -/
theorem step_of_window_running {s : State} (h : s.rs = .running) (hw : (hostWindow s).rs = .running) :
    step s = runInstruction (hostWindow s) := by
  simp [step, machineStep, stepRunning, h, hw]

/-- An unsupported byte (R83). -/
theorem runInstruction_of_none {t : State} (h : lookup (t.readByte t.pc) = none) :
    runInstruction t = .next (raise (.unsupportedOpcode (t.readByte t.pc)) (t.setPc (t.pc + 1))) := by
  simp only [runInstruction, fetch, h]

/-- A supported byte (R84 to R86). -/
theorem runInstruction_of_some {t u : State} {i : Instr} (h : lookup (t.readByte t.pc) = some i)
    (hu : exec i (t.setPc (t.pc + 1)) = .next u) :
    runInstruction t = .next (finish (t.pc + 1) i.length u) := by
  simp only [runInstruction, fetch, h, hu, State.setPc_pc]

/-- Everything one step can do. -/
theorem step_cases (s : State) :
    (s.rs ≠ .running ∧ step s = .next (idle s)) ∨
    (s.rs = .running ∧ (hostWindow s).rs = .stopped ∧ step s = .next (hostWindow s)) ∨
    (s.rs = .running ∧ (hostWindow s).rs = .running ∧ lookup ((hostWindow s).readByte (hostWindow s).pc) = none ∧
      step s = .next (raise (.unsupportedOpcode ((hostWindow s).readByte (hostWindow s).pc))
        ((hostWindow s).setPc ((hostWindow s).pc + 1)))) ∨
    (s.rs = .running ∧ (hostWindow s).rs = .running ∧ ∃ i u,
      lookup ((hostWindow s).readByte (hostWindow s).pc) = some i ∧
      exec i ((hostWindow s).setPc ((hostWindow s).pc + 1)) = .next u ∧
      Kept ((hostWindow s).setPc ((hostWindow s).pc + 1)) u ∧
      step s = .next (finish ((hostWindow s).pc + 1) i.length u)) := by
  by_cases hs : s.rs = .running
  · refine .inr ?_
    rcases (hostWindow_frame s).1 with hr | hr
    · have hr := hr.trans hs
      refine .inr ?_
      rw [step_of_window_running hs hr]
      cases hl : lookup ((hostWindow s).readByte (hostWindow s).pc) with
      | none => exact .inl ⟨hs, hr, rfl, runInstruction_of_none hl⟩
      | some i =>
        obtain ⟨u, hu, hk⟩ := exec_kept i ((hostWindow s).setPc ((hostWindow s).pc + 1))
        exact .inr ⟨hs, hr, i, u, rfl, hu, hk, runInstruction_of_some hl hu⟩
    · exact .inl ⟨hs, hr, step_of_window_stopped hs hr⟩
  · exact .inl ⟨hs, step_of_not_running hs⟩

end Sys2Proof.Machine
end

