-- ==== Sys2Proof/Laws/PerInstr.lean ====
section
/-! SUPPORT. Facts about every instruction as syntax, one lemma per constructor: the descriptor's code looks up the
instruction, and the descriptor's length is its format's (R60, R63, R64, R66). -/

namespace Sys2Proof.Laws.OpcodeLookup

/-- The number of bytes of a format (R60). -/
def bytesOf : Format → Nat
  | .f1 => 1
  | .f2 => 2
  | .f3 => 3

/-- The two tables of the decoder agree on an instruction. -/
def Statement (i : Instr) : Prop := lookup (descriptor i).code = some i ∧ i.length = bytesOf i.mode.format

theorem brk : Statement .brk := ⟨rfl, rfl⟩
theorem aslZeroPage : Statement .aslZeroPage := ⟨rfl, rfl⟩
theorem aslAccumulator : Statement .aslAccumulator := ⟨rfl, rfl⟩
theorem aslAbsolute : Statement .aslAbsolute := ⟨rfl, rfl⟩
theorem bpl : Statement .bpl := ⟨rfl, rfl⟩
theorem aslZeroPageX : Statement .aslZeroPageX := ⟨rfl, rfl⟩
theorem clc : Statement .clc := ⟨rfl, rfl⟩
theorem aslAbsoluteX : Statement .aslAbsoluteX := ⟨rfl, rfl⟩
theorem jsr : Statement .jsr := ⟨rfl, rfl⟩
theorem andIndirectX : Statement .andIndirectX := ⟨rfl, rfl⟩
theorem andZeroPage : Statement .andZeroPage := ⟨rfl, rfl⟩
theorem andImmediate : Statement .andImmediate := ⟨rfl, rfl⟩
theorem andAbsolute : Statement .andAbsolute := ⟨rfl, rfl⟩
theorem andIndirectY : Statement .andIndirectY := ⟨rfl, rfl⟩
theorem andZeroPageX : Statement .andZeroPageX := ⟨rfl, rfl⟩
theorem sec : Statement .sec := ⟨rfl, rfl⟩
theorem andAbsoluteY : Statement .andAbsoluteY := ⟨rfl, rfl⟩
theorem andAbsoluteX : Statement .andAbsoluteX := ⟨rfl, rfl⟩
theorem rts : Statement .rts := ⟨rfl, rfl⟩
theorem adcIndirectX : Statement .adcIndirectX := ⟨rfl, rfl⟩
theorem adcZeroPage : Statement .adcZeroPage := ⟨rfl, rfl⟩
theorem adcImmediate : Statement .adcImmediate := ⟨rfl, rfl⟩
theorem adcAbsolute : Statement .adcAbsolute := ⟨rfl, rfl⟩
theorem adcIndirectY : Statement .adcIndirectY := ⟨rfl, rfl⟩
theorem adcZeroPageX : Statement .adcZeroPageX := ⟨rfl, rfl⟩
theorem adcAbsoluteY : Statement .adcAbsoluteY := ⟨rfl, rfl⟩
theorem adcAbsoluteX : Statement .adcAbsoluteX := ⟨rfl, rfl⟩
theorem staIndirectX : Statement .staIndirectX := ⟨rfl, rfl⟩
theorem styZeroPage : Statement .styZeroPage := ⟨rfl, rfl⟩
theorem staZeroPage : Statement .staZeroPage := ⟨rfl, rfl⟩
theorem stxZeroPage : Statement .stxZeroPage := ⟨rfl, rfl⟩
theorem txa : Statement .txa := ⟨rfl, rfl⟩
theorem styAbsolute : Statement .styAbsolute := ⟨rfl, rfl⟩
theorem staAbsolute : Statement .staAbsolute := ⟨rfl, rfl⟩
theorem stxAbsolute : Statement .stxAbsolute := ⟨rfl, rfl⟩
theorem bcc : Statement .bcc := ⟨rfl, rfl⟩
theorem staIndirectY : Statement .staIndirectY := ⟨rfl, rfl⟩
theorem styZeroPageX : Statement .styZeroPageX := ⟨rfl, rfl⟩
theorem staZeroPageX : Statement .staZeroPageX := ⟨rfl, rfl⟩
theorem stxZeroPageY : Statement .stxZeroPageY := ⟨rfl, rfl⟩
theorem staAbsoluteY : Statement .staAbsoluteY := ⟨rfl, rfl⟩
theorem staAbsoluteX : Statement .staAbsoluteX := ⟨rfl, rfl⟩
theorem ldyImmediate : Statement .ldyImmediate := ⟨rfl, rfl⟩
theorem ldaIndirectX : Statement .ldaIndirectX := ⟨rfl, rfl⟩
theorem ldxImmediate : Statement .ldxImmediate := ⟨rfl, rfl⟩
theorem ldyZeroPage : Statement .ldyZeroPage := ⟨rfl, rfl⟩
theorem ldaZeroPage : Statement .ldaZeroPage := ⟨rfl, rfl⟩
theorem ldxZeroPage : Statement .ldxZeroPage := ⟨rfl, rfl⟩
theorem ldaImmediate : Statement .ldaImmediate := ⟨rfl, rfl⟩
theorem tax : Statement .tax := ⟨rfl, rfl⟩
theorem ldyAbsolute : Statement .ldyAbsolute := ⟨rfl, rfl⟩
theorem ldaAbsolute : Statement .ldaAbsolute := ⟨rfl, rfl⟩
theorem ldxAbsolute : Statement .ldxAbsolute := ⟨rfl, rfl⟩
theorem bcs : Statement .bcs := ⟨rfl, rfl⟩
theorem ldaIndirectY : Statement .ldaIndirectY := ⟨rfl, rfl⟩
theorem ldyZeroPageX : Statement .ldyZeroPageX := ⟨rfl, rfl⟩
theorem ldaZeroPageX : Statement .ldaZeroPageX := ⟨rfl, rfl⟩
theorem ldxZeroPageY : Statement .ldxZeroPageY := ⟨rfl, rfl⟩
theorem ldaAbsoluteY : Statement .ldaAbsoluteY := ⟨rfl, rfl⟩
theorem ldyAbsoluteX : Statement .ldyAbsoluteX := ⟨rfl, rfl⟩
theorem ldaAbsoluteX : Statement .ldaAbsoluteX := ⟨rfl, rfl⟩
theorem ldxAbsoluteY : Statement .ldxAbsoluteY := ⟨rfl, rfl⟩
theorem cmpIndirectX : Statement .cmpIndirectX := ⟨rfl, rfl⟩
theorem cmpZeroPage : Statement .cmpZeroPage := ⟨rfl, rfl⟩
theorem cmpImmediate : Statement .cmpImmediate := ⟨rfl, rfl⟩
theorem dex : Statement .dex := ⟨rfl, rfl⟩
theorem cmpAbsolute : Statement .cmpAbsolute := ⟨rfl, rfl⟩
theorem bne : Statement .bne := ⟨rfl, rfl⟩
theorem cmpIndirectY : Statement .cmpIndirectY := ⟨rfl, rfl⟩
theorem cmpZeroPageX : Statement .cmpZeroPageX := ⟨rfl, rfl⟩
theorem cmpAbsoluteY : Statement .cmpAbsoluteY := ⟨rfl, rfl⟩
theorem cmpAbsoluteX : Statement .cmpAbsoluteX := ⟨rfl, rfl⟩
theorem cpxImmediate : Statement .cpxImmediate := ⟨rfl, rfl⟩
theorem sbcIndirectX : Statement .sbcIndirectX := ⟨rfl, rfl⟩
theorem cpxZeroPage : Statement .cpxZeroPage := ⟨rfl, rfl⟩
theorem sbcZeroPage : Statement .sbcZeroPage := ⟨rfl, rfl⟩
theorem inx : Statement .inx := ⟨rfl, rfl⟩
theorem sbcImmediate : Statement .sbcImmediate := ⟨rfl, rfl⟩
theorem cpxAbsolute : Statement .cpxAbsolute := ⟨rfl, rfl⟩
theorem sbcAbsolute : Statement .sbcAbsolute := ⟨rfl, rfl⟩
theorem beq : Statement .beq := ⟨rfl, rfl⟩
theorem sbcIndirectY : Statement .sbcIndirectY := ⟨rfl, rfl⟩
theorem sbcZeroPageX : Statement .sbcZeroPageX := ⟨rfl, rfl⟩
theorem sbcAbsoluteY : Statement .sbcAbsoluteY := ⟨rfl, rfl⟩
theorem sbcAbsoluteX : Statement .sbcAbsoluteX := ⟨rfl, rfl⟩

end Sys2Proof.Laws.OpcodeLookup
end

