-- ==== Sys2Proof/Laws/Words.lean ====
section
/-! SUPPORT. The byte and word helpers as numbers (R7, R8). -/

namespace Sys2Proof.Machine

theorem concat16_toNat (hi lo : Byte) : (concat16 hi lo).toNat = hi.toNat * 256 + lo.toNat := by
  have := hi.isLt
  have := lo.isLt
  simp only [concat16, BitVec.toNat_ofNat]
  omega

theorem lo8_toNat (w : Word) : (lo8 w).toNat = w.toNat % 256 := by
  simp [lo8]

theorem hi8_toNat (w : Word) : (hi8 w).toNat = w.toNat / 256 := by
  have := w.isLt
  simp only [hi8, BitVec.extractLsb'_toNat, Nat.shiftRight_eq_div_pow]
  omega

theorem concat16_hi8_lo8 (w : Word) : concat16 (hi8 w) (lo8 w) = w := by
  apply BitVec.eq_of_toNat_eq
  rw [concat16_toNat, hi8_toNat, lo8_toNat]
  omega

theorem zext16_toNat (b : Byte) : (zext16 b).toNat = b.toNat := by
  have := b.isLt
  simp only [zext16, BitVec.toNat_setWidth]
  omega

theorem sext16_toInt (b : Byte) : (sext16 b).toInt = b.toInt := by
  simp only [sext16]
  exact BitVec.toInt_signExtend_of_le (by decide)

theorem shl1_toNat (v : Byte) : (shl1 v).toNat = (v.toNat * 2) % 256 := by
  simp [shl1, Nat.shiftLeft_eq]

/-- The stack address lies in the stack page (R48). -/
theorem State.stackAddr_toNat (s : State) : s.stackAddr.toNat = 0x100 + s.sp.toNat := by
  have := s.sp.isLt
  simp only [State.stackAddr, stackBase, BitVec.toNat_add, zext16_toNat]
  simp
  omega

end Sys2Proof.Machine
end

