-- ==== Sys2Proof/Tests/Slice0.lean ====
section
/-! SUPPORT. The model's own tests: what the decoder reads from words written out from the spec's encodings, what the
well-formedness check refuses, the spec's own test vectors (95_test_vectors.md, each named in its docstring), and a witness
for the hypotheses of every statement. -/

namespace Sys2Proof.Tests

open Sys2Proof Sys2Proof.Machine Sys2Proof.Say

/-- The vectors' start state (95_test_vectors.md, Conventions), a run in progress at `pc`, with `bytes` there. -/
def ready (pc : Word) (bytes : List Byte) : State :=
  { State.reset.writeBytes pc bytes with pc := pc, rs := .running }

/-- As `ready`, in the state after the fetch of the opcode byte, whose operand bytes stand at 0x0601. -/
def operandAt0601 (bytes : List Byte) : State := { State.reset.writeBytes 0x0601 bytes with pc := 0x0601, rs := .running }

/-- The result is a next state and `p` holds of it. -/
def gives (r : Result) (p : State → Bool) : Bool :=
  match r with
  | .next t => p t
  | .fault _ => false
  | .refused _ => false

/-- The effective address, or none where the resolver raises. -/
def eaOf (m : Mode) (s : State) : Option Word :=
  match ea m s with
  | .ok addr => some addr
  | .error _ => none

/-- The bytes decode to the instruction with these operand bytes and nothing is left. -/
def reads (bytes : List Byte) (i : Instr) (operand : Operand) : Bool :=
  match decode bytes with
  | .ok (c, rest) => decide (c = ⟨i, operand⟩) && rest.isEmpty
  | .error _ => false

/-! ### Decoding: every row of the opcode table, bit by bit from its encoding -/

theorem test_decode_adc :
    (reads [0b01100001, 0x9C] .adcIndirectX (.byte 0x9C) &&
      reads [0b01100101, 0x9C] .adcZeroPage (.byte 0x9C) &&
      reads [0b01101001, 0x9C] .adcImmediate (.byte 0x9C) &&
      reads [0b01101101, 0x34, 0xF2] .adcAbsolute (.word 0x34 0xF2) &&
      reads [0b01110001, 0x9C] .adcIndirectY (.byte 0x9C) &&
      reads [0b01110101, 0x9C] .adcZeroPageX (.byte 0x9C) &&
      reads [0b01111001, 0x34, 0xF2] .adcAbsoluteY (.word 0x34 0xF2) &&
      reads [0b01111101, 0x34, 0xF2] .adcAbsoluteX (.word 0x34 0xF2)) = true := by decide

theorem test_decode_and :
    (reads [0b00100001, 0x9C] .andIndirectX (.byte 0x9C) &&
      reads [0b00100101, 0x9C] .andZeroPage (.byte 0x9C) &&
      reads [0b00101001, 0x9C] .andImmediate (.byte 0x9C) &&
      reads [0b00101101, 0x34, 0xF2] .andAbsolute (.word 0x34 0xF2) &&
      reads [0b00110001, 0x9C] .andIndirectY (.byte 0x9C) &&
      reads [0b00110101, 0x9C] .andZeroPageX (.byte 0x9C) &&
      reads [0b00111001, 0x34, 0xF2] .andAbsoluteY (.word 0x34 0xF2) &&
      reads [0b00111101, 0x34, 0xF2] .andAbsoluteX (.word 0x34 0xF2)) = true := by decide

theorem test_decode_asl :
    (reads [0b00000110, 0x9C] .aslZeroPage (.byte 0x9C) &&
      reads [0b00001010] .aslAccumulator .none &&
      reads [0b00001110, 0x34, 0xF2] .aslAbsolute (.word 0x34 0xF2) &&
      reads [0b00010110, 0x9C] .aslZeroPageX (.byte 0x9C) &&
      reads [0b00011110, 0x34, 0xF2] .aslAbsoluteX (.word 0x34 0xF2)) = true := by decide

theorem test_decode_bcc :
    (reads [0b10010000, 0x9C] .bcc (.byte 0x9C)) = true := by decide

theorem test_decode_bcs :
    (reads [0b10110000, 0x9C] .bcs (.byte 0x9C)) = true := by decide

theorem test_decode_beq :
    (reads [0b11110000, 0x9C] .beq (.byte 0x9C)) = true := by decide

theorem test_decode_bne :
    (reads [0b11010000, 0x9C] .bne (.byte 0x9C)) = true := by decide

theorem test_decode_bpl :
    (reads [0b00010000, 0x9C] .bpl (.byte 0x9C)) = true := by decide

theorem test_decode_brk :
    (reads [0b00000000] .brk .none) = true := by decide

theorem test_decode_clc :
    (reads [0b00011000] .clc .none) = true := by decide

theorem test_decode_cmp :
    (reads [0b11000001, 0x9C] .cmpIndirectX (.byte 0x9C) &&
      reads [0b11000101, 0x9C] .cmpZeroPage (.byte 0x9C) &&
      reads [0b11001001, 0x9C] .cmpImmediate (.byte 0x9C) &&
      reads [0b11001101, 0x34, 0xF2] .cmpAbsolute (.word 0x34 0xF2) &&
      reads [0b11010001, 0x9C] .cmpIndirectY (.byte 0x9C) &&
      reads [0b11010101, 0x9C] .cmpZeroPageX (.byte 0x9C) &&
      reads [0b11011001, 0x34, 0xF2] .cmpAbsoluteY (.word 0x34 0xF2) &&
      reads [0b11011101, 0x34, 0xF2] .cmpAbsoluteX (.word 0x34 0xF2)) = true := by decide

theorem test_decode_cpx :
    (reads [0b11100000, 0x9C] .cpxImmediate (.byte 0x9C) &&
      reads [0b11100100, 0x9C] .cpxZeroPage (.byte 0x9C) &&
      reads [0b11101100, 0x34, 0xF2] .cpxAbsolute (.word 0x34 0xF2)) = true := by decide

theorem test_decode_dex :
    (reads [0b11001010] .dex .none) = true := by decide

theorem test_decode_inx :
    (reads [0b11101000] .inx .none) = true := by decide

theorem test_decode_jsr :
    (reads [0b00100000, 0x34, 0xF2] .jsr (.word 0x34 0xF2)) = true := by decide

theorem test_decode_lda :
    (reads [0b10100001, 0x9C] .ldaIndirectX (.byte 0x9C) &&
      reads [0b10100101, 0x9C] .ldaZeroPage (.byte 0x9C) &&
      reads [0b10101001, 0x9C] .ldaImmediate (.byte 0x9C) &&
      reads [0b10101101, 0x34, 0xF2] .ldaAbsolute (.word 0x34 0xF2) &&
      reads [0b10110001, 0x9C] .ldaIndirectY (.byte 0x9C) &&
      reads [0b10110101, 0x9C] .ldaZeroPageX (.byte 0x9C) &&
      reads [0b10111001, 0x34, 0xF2] .ldaAbsoluteY (.word 0x34 0xF2) &&
      reads [0b10111101, 0x34, 0xF2] .ldaAbsoluteX (.word 0x34 0xF2)) = true := by decide

theorem test_decode_ldx :
    (reads [0b10100010, 0x9C] .ldxImmediate (.byte 0x9C) &&
      reads [0b10100110, 0x9C] .ldxZeroPage (.byte 0x9C) &&
      reads [0b10101110, 0x34, 0xF2] .ldxAbsolute (.word 0x34 0xF2) &&
      reads [0b10110110, 0x9C] .ldxZeroPageY (.byte 0x9C) &&
      reads [0b10111110, 0x34, 0xF2] .ldxAbsoluteY (.word 0x34 0xF2)) = true := by decide

theorem test_decode_ldy :
    (reads [0b10100000, 0x9C] .ldyImmediate (.byte 0x9C) &&
      reads [0b10100100, 0x9C] .ldyZeroPage (.byte 0x9C) &&
      reads [0b10101100, 0x34, 0xF2] .ldyAbsolute (.word 0x34 0xF2) &&
      reads [0b10110100, 0x9C] .ldyZeroPageX (.byte 0x9C) &&
      reads [0b10111100, 0x34, 0xF2] .ldyAbsoluteX (.word 0x34 0xF2)) = true := by decide

theorem test_decode_rts :
    (reads [0b01100000] .rts .none) = true := by decide

theorem test_decode_sbc :
    (reads [0b11100001, 0x9C] .sbcIndirectX (.byte 0x9C) &&
      reads [0b11100101, 0x9C] .sbcZeroPage (.byte 0x9C) &&
      reads [0b11101001, 0x9C] .sbcImmediate (.byte 0x9C) &&
      reads [0b11101101, 0x34, 0xF2] .sbcAbsolute (.word 0x34 0xF2) &&
      reads [0b11110001, 0x9C] .sbcIndirectY (.byte 0x9C) &&
      reads [0b11110101, 0x9C] .sbcZeroPageX (.byte 0x9C) &&
      reads [0b11111001, 0x34, 0xF2] .sbcAbsoluteY (.word 0x34 0xF2) &&
      reads [0b11111101, 0x34, 0xF2] .sbcAbsoluteX (.word 0x34 0xF2)) = true := by decide

theorem test_decode_sec :
    (reads [0b00111000] .sec .none) = true := by decide

theorem test_decode_sta :
    (reads [0b10000001, 0x9C] .staIndirectX (.byte 0x9C) &&
      reads [0b10000101, 0x9C] .staZeroPage (.byte 0x9C) &&
      reads [0b10001101, 0x34, 0xF2] .staAbsolute (.word 0x34 0xF2) &&
      reads [0b10010001, 0x9C] .staIndirectY (.byte 0x9C) &&
      reads [0b10010101, 0x9C] .staZeroPageX (.byte 0x9C) &&
      reads [0b10011001, 0x34, 0xF2] .staAbsoluteY (.word 0x34 0xF2) &&
      reads [0b10011101, 0x34, 0xF2] .staAbsoluteX (.word 0x34 0xF2)) = true := by decide

theorem test_decode_stx :
    (reads [0b10000110, 0x9C] .stxZeroPage (.byte 0x9C) &&
      reads [0b10001110, 0x34, 0xF2] .stxAbsolute (.word 0x34 0xF2) &&
      reads [0b10010110, 0x9C] .stxZeroPageY (.byte 0x9C)) = true := by decide

theorem test_decode_sty :
    (reads [0b10000100, 0x9C] .styZeroPage (.byte 0x9C) &&
      reads [0b10001100, 0x34, 0xF2] .styAbsolute (.word 0x34 0xF2) &&
      reads [0b10010100, 0x9C] .styZeroPageX (.byte 0x9C)) = true := by decide

theorem test_decode_tax :
    (reads [0b10101010] .tax .none) = true := by decide

theorem test_decode_txa :
    (reads [0b10001010] .txa .none) = true := by decide

theorem test_table_word_first_byte_is_low : decodeTableWord 16 0x0169 = some .adcImmediate := by decide

theorem test_table_word_without_operand_bits : decodeTableWord 8 0x20 = some .jsr := by decide

theorem test_table_word_unsupported : decodeTableWord 8 0xEA = none := by decide

theorem test_table_has_85_rows : opcodeTable.length = 85 := by decide

/-! ### Well-formedness: each check refuses an ill-formed term -/

theorem test_f1_refuses_a_byte : Code.wellFormed ⟨.inx, .byte 0⟩ = false := by decide
theorem test_f1_refuses_a_word : Code.wellFormed ⟨.aslAccumulator, .word 0 0⟩ = false := by decide
theorem test_f2_refuses_nothing : Code.wellFormed ⟨.ldaImmediate, .none⟩ = false := by decide
theorem test_f2_refuses_a_word : Code.wellFormed ⟨.bne, .word 0 0⟩ = false := by decide
theorem test_f3_refuses_nothing : Code.wellFormed ⟨.jsr, .none⟩ = false := by decide
theorem test_f3_refuses_a_byte : Code.wellFormed ⟨.staAbsolute, .byte 0⟩ = false := by decide
theorem test_bytes_empty_refused : wellFormedBytes [] = false := by decide
theorem test_bytes_unsupported_refused : wellFormedBytes [0x4C, 0x00, 0x06] = false := by decide
theorem test_bytes_truncated_f2_refused : wellFormedBytes [0xA9] = false := by decide
theorem test_bytes_truncated_f3_refused : wellFormedBytes [0x20, 0x00] = false := by decide
theorem test_bytes_trailing_refused : wellFormedBytes [0xE8, 0xE8] = false := by decide
theorem test_bytes_whole_accepted : wellFormedBytes [0x20, 0x0A, 0x06] = true := by decide

/-! ### Addressing-mode resolver -/

/-- V-EA-3. -/
theorem test_ea_zero_page_x_wraps : eaOf .zeroPageX ({ operandAt0601 [0xF0] with x := 0x20 }) = some 0x0010 := by decide

/-- V-EA-4. -/
theorem test_ea_zero_page_y_wraps : eaOf .zeroPageY ({ operandAt0601 [0xFF] with y := 0x01 }) = some 0x0000 := by decide

/-- V-EA-5. -/
theorem test_ea_absolute : eaOf .absolute (operandAt0601 [0x34, 0x12]) = some 0x1234 := by decide

/-- V-EA-7. -/
theorem test_ea_absolute_x_crosses_page : eaOf .absoluteX ({ operandAt0601 [0xFF, 0x12] with x := 0x01 }) = some 0x1300 := by decide

/-- V-EA-8. -/
theorem test_ea_absolute_y_wraps : eaOf .absoluteY ({ operandAt0601 [0xFF, 0xFF] with y := 0x01 }) = some 0x0000 := by decide

/-- V-EA-9. -/
theorem test_ea_absolute_operand_wraps : eaOf .absolute ({ State.reset.writeByte 0x0000 0x20 with pc := 0xFFFF }) = some 0x2000 := by decide

/-- V-EA-10. -/
theorem test_ea_indirect_x : eaOf .indirectX (({ operandAt0601 [0x20] with x := 0x04 }).writeByte 0x25 0x30) = some 0x3000 := by decide

/-- V-EA-12. -/
theorem test_ea_indirect_y : eaOf .indirectY ((({ operandAt0601 [0x40] with y := 0x01 }).writeByte 0x40 0xFF).writeByte 0x41 0x12) = some 0x1300 := by decide

/-- V-EA-13, Linear16. -/
theorem test_ea_pointer_linear : eaOf .indirectY (((operandAt0601 [0xFF]).writeByte 0x0100 0x30).writeByte 0x0000 0x20) = some 0x3000 := by decide

/-- V-EA-13, ZeroPage8. -/
theorem test_ea_pointer_zero_page : eaOf .indirectY ({ ((operandAt0601 [0xFF]).writeByte 0x0100 0x30).writeByte 0x0000 0x20 with params := ⟨0xFF, 0x0600, .zeroPage8⟩ }) = some 0x2000 := by decide

/-- V-EA-14, ZeroPage8. -/
theorem test_ea_pointer_zero_page_x : eaOf .indirectX ({ ((operandAt0601 [0xFE]).writeByte 0x0100 0x30).writeByte 0x0000 0x20 with x := 0x01, params := ⟨0xFF, 0x0600, .zeroPage8⟩ }) = some 0x2000 := by decide

/-- V-EA-15. -/
theorem test_ea_relative : eaOf .relative (operandAt0601 []) = some 0x0601 := by decide

/-- V-EA-16. -/
theorem test_ea_none : eaOf .noneAddressing (operandAt0601 []) = none := by decide

/-! ### Arithmetic, logic, shift and compare: one step of each vector -/

/-- V-ADC-3. -/
theorem test_adc_both_c_and_v : gives (step ({ ready 0x0600 [0x69, 0x80] with a := 0x80, p := 0x00 }))
    (fun t => t.a == 0x00 && t.p == 0x43 && t.pc == 0x0602) = true := by decide

/-- V-ADC-5. -/
theorem test_adc_ignores_carry : gives (step ({ ready 0x0600 [0x69, 0x01] with a := 0x01, p := 0x01 }))
    (fun t => t.a == 0x02 && t.p == 0x00 && t.pc == 0x0602) = true := by decide

/-- V-SBC-2. -/
theorem test_sbc_borrow : gives (step ({ ready 0x0600 [0xE9, 0x05] with a := 0x03, p := 0x00 }))
    (fun t => t.a == 0xFE && t.p == 0x81 && t.pc == 0x0602) = true := by decide

/-- V-SBC-4. -/
theorem test_sbc_overflow_and_borrow : gives (step ({ ready 0x0600 [0xE9, 0xFF] with a := 0x7F, p := 0x00 }))
    (fun t => t.a == 0x80 && t.p == 0xC1 && t.pc == 0x0602) = true := by decide

/-- V-AND-3. -/
theorem test_and_keeps_c_and_v : gives (step ({ ready 0x0600 [0x29, 0x0F] with a := 0xCC, p := 0x41 }))
    (fun t => t.a == 0x0C && t.p == 0x41 && t.pc == 0x0602) = true := by decide

/-- V-AND-2. -/
theorem test_and_negative : gives (step ({ ready 0x0600 [0x29, 0x80] with a := 0xFF, p := 0x00 }))
    (fun t => t.a == 0x80 && t.p == 0x80 && t.pc == 0x0602) = true := by decide

/-- V-ASL-1. -/
theorem test_asl_a_zero : gives (step ({ ready 0x0600 [0x0A] with a := 0x80 }))
    (fun t => t.a == 0x00 && t.p == 0x03 && t.pc == 0x0601) = true := by decide

/-- V-ASL-3. -/
theorem test_asl_memory : gives (step (({ ready 0x0600 [0x06, 0x10] with a := 0x33 }).writeByte 0x10 0xC0))
    (fun t => t.readByte 0x10 == 0x80 && t.a == 0x33 && t.p == 0x81) = true := by decide

/-- V-ASL-4. -/
theorem test_asl_memory_x_wraps : gives (step (({ ready 0x0600 [0x16, 0x10] with x := 0xF5 }).writeByte 0x05 0x01))
    (fun t => t.readByte 0x05 == 0x02 && t.p == 0x00) = true := by decide

/-- V-CMP-4. -/
theorem test_cmp_negative_with_carry : gives (step ({ ready 0x0600 [0xC9, 0x00] with a := 0x80, p := 0x00 }))
    (fun t => t.a == 0x80 && t.p == 0x81 && t.pc == 0x0602) = true := by decide

/-- V-CMP-6. -/
theorem test_cmp_keeps_v : gives (step ({ ready 0x0600 [0xC9, 0x10] with a := 0x20, p := 0x40 }))
    (fun t => t.a == 0x20 && t.p == 0x41 && t.pc == 0x0602) = true := by decide

/-- V-CPX-1. -/
theorem test_cpx_raw_negative : gives (step ({ ready 0x0600 [0xE0, 0x20] with x := 0x90 }))
    (fun t => t.x == 0x90 && t.p == 0x81) = true := by decide

/-- V-CPX-2. -/
theorem test_cpx_raw_positive : gives (step ({ ready 0x0600 [0xE0, 0x20] with x := 0x10 }))
    (fun t => t.p == 0x00) = true := by decide

/-! ### Branches -/

/-- V-BR-1. -/
theorem test_bcc_taken : gives (step ({ ready 0x0600 [0x90, 0x04] with p := 0x00 }))
    (fun t => t.pc == 0x0606 && t.p == 0x00) = true := by decide

/-- V-BR-2. -/
theorem test_bcc_not_taken : gives (step ({ ready 0x0600 [0x90, 0x04] with p := 0x01 }))
    (fun t => t.pc == 0x0602 && t.p == 0x01) = true := by decide

/-- V-BR-3. -/
theorem test_bcs_back : gives (step ({ ready 0x0600 [0xB0, 0x80] with p := 0x01 }))
    (fun t => t.pc == 0x0582 && t.p == 0x01) = true := by decide

/-- V-BR-4. -/
theorem test_bcs_forward : gives (step ({ ready 0x0600 [0xB0, 0x7F] with p := 0x01 }))
    (fun t => t.pc == 0x0681 && t.p == 0x01) = true := by decide

/-- V-BR-5. -/
theorem test_beq_taken : gives (step ({ ready 0x06F0 [0xF0, 0x20] with p := 0x02 }))
    (fun t => t.pc == 0x0712 && t.p == 0x02) = true := by decide

/-- V-BR-11. -/
theorem test_beq_to_itself : gives (step ({ ready 0x0600 [0xF0, 0xFE] with p := 0x02 }))
    (fun t => t.pc == 0x0600 && t.p == 0x02) = true := by decide

/-- V-BR-7. -/
theorem test_bne_wraps : gives (step ({ ready 0xFFFE [0xD0, 0x01] with p := 0x00 }))
    (fun t => t.pc == 0x0001 && t.p == 0x00) = true := by decide

/-- V-BR-10. -/
theorem test_bne_target_is_pc_before : gives (step ({ ready 0x0602 [0xD0, 0xFF] with p := 0x00 }))
    (fun t => t.pc == 0x0604 && t.p == 0x00) = true := by decide

/-- V-BR-8. -/
theorem test_bpl_taken : gives (step ({ ready 0x0600 [0x10, 0x00] with p := 0x00 }))
    (fun t => t.pc == 0x0602 && t.p == 0x00) = true := by decide

/-- V-BR-9. -/
theorem test_bpl_not_taken : gives (step ({ ready 0x0600 [0x10, 0x10] with p := 0x80 }))
    (fun t => t.pc == 0x0602 && t.p == 0x80) = true := by decide

/-- V-BR-12. -/
theorem test_bcc_wraps_below_zero : gives (step ({ ready 0x0010 [0x90, 0x80] with p := 0x00 }))
    (fun t => t.pc == 0xFF92 && t.p == 0x00) = true := by decide

/-! ### Flag, increment, decrement and transfer -/

/-- V-FL-1. -/
theorem test_clc : gives (step ({ ready 0x0600 [0x18] with p := 0x83 }))
    (fun t => t.p == 0x82 && t.pc == 0x0601) = true := by decide

/-- V-FL-3. -/
theorem test_sec_keeps_reserved_bits : gives (step ({ ready 0x0600 [0x38] with p := 0x3C }))
    (fun t => t.p == 0x3D && t.pc == 0x0601) = true := by decide

/-- V-ID-1. -/
theorem test_inx_wraps : gives (step ({ ready 0x0600 [0xE8] with x := 0xFF }))
    (fun t => t.x == 0x00 && t.p == 0x02 && t.pc == 0x0601) = true := by decide

/-- V-ID-3. -/
theorem test_dex_wraps : gives (step ({ ready 0x0600 [0xCA] with x := 0x00 }))
    (fun t => t.x == 0xFF && t.p == 0x80 && t.pc == 0x0601) = true := by decide

/-- V-ID-4. -/
theorem test_dex_keeps_carry : gives (step ({ ready 0x0600 [0xCA] with x := 0x01, p := 0x01 }))
    (fun t => t.x == 0x00 && t.p == 0x03 && t.pc == 0x0601) = true := by decide

/-- V-TR-1. -/
theorem test_tax : gives (step ({ ready 0x0600 [0xAA] with x := 0x55 }))
    (fun t => t.x == 0x00 && t.a == 0x00 && t.p == 0x02 && t.pc == 0x0601) = true := by decide

/-- V-TR-3. -/
theorem test_txa : gives (step ({ ready 0x0600 [0x8A] with x := 0xFF }))
    (fun t => t.a == 0xFF && t.x == 0xFF && t.p == 0x80 && t.pc == 0x0601) = true := by decide

/-! ### Subroutine and halt -/

/-- V-JSR-1. -/
theorem test_jsr : gives (step (ready 0x0600 [0x20, 0x0A, 0x06]))
    (fun t => t.readByte 0x01FF == 0x06 && t.readByte 0x01FE == 0x02 && t.sp == 0xFD && t.pc == 0x060A) = true := by decide

/-- V-JSR-2. -/
theorem test_jsr_stack_wraps : gives (step ({ ready 0x0600 [0x20, 0x00, 0x80] with sp := 0x00 }))
    (fun t => t.readByte 0x0100 == 0x06 && t.readByte 0x01FF == 0x02 && t.sp == 0xFE && t.pc == 0x8000) = true := by decide

/-- V-JSR-3, its first step. -/
theorem test_jsr_target_is_pc_before : gives (step (ready 0x0600 [0x20, 0x01, 0x06]))
    (fun t => t.pc == 0x0603 && t.sp == 0xFD) = true := by decide

/-- V-RTS-1. -/
theorem test_rts : gives (step ((({ ready 0x0600 [0x60] with sp := 0xFD }).writeByte 0x01FE 0x02).writeByte 0x01FF 0x06))
    (fun t => t.pc == 0x0603 && t.sp == 0xFF) = true := by decide

/-- V-RTS-2. -/
theorem test_rts_wraps : gives (step (((ready 0x0600 [0x60]).writeByte 0x0100 0xFF).writeByte 0x0101 0xFF))
    (fun t => t.pc == 0x0000 && t.sp == 0x01) = true := by decide

/-- V-BRK-1. -/
theorem test_brk : gives (step ({ ready 0x0700 [0x00] with a := 0x12, p := 0xC3 }))
    (fun t => t.pc == 0x0701 && t.a == 0x12 && t.p == 0xC3 && t.sp == 0xFF && decide (t.rs = .stopped)) = true := by decide

/-- V-ST-1. -/
theorem test_push_wraps : ((ready 0 []).setSp 0x00).push 0xAB = { ready 0 [] with sp := 0xFF, mem := [(0x0100, 0xAB)] } := by decide

/-- V-ST-2. -/
theorem test_pop_wraps : ((ready 0 []).writeByte 0x0100 0xAB).pop.1 = 0xAB ∧ ((ready 0 []).writeByte 0x0100 0xAB).pop.2.sp = 0x00 := by decide

/-! ### Loads and stores -/

/-- V-LS-1. -/
theorem test_lda_zero : gives (step ({ ready 0x0600 [0xA9, 0x00] with a := 0x55, p := 0x80 }))
    (fun t => t.a == 0x00 && t.p == 0x02 && t.pc == 0x0602) = true := by decide

/-- R97, R170 (the load of program L3.4). -/
theorem test_lda_indirect_x : gives (step (((({ ready 0x0600 [0xA1, 0x3C] with x := 0x04 }).writeByte 0x40 0x35).writeByte 0x41 0x12).writeByte 0x1235 0x0A))
    (fun t => t.a == 0x0A && t.pc == 0x0602) = true := by decide

/-- V-LS-2. -/
theorem test_ldx_zero_page_y : gives (step (({ ready 0x0600 [0xB6, 0xF0] with y := 0x20 }).writeByte 0x10 0x99))
    (fun t => t.x == 0x99 && t.p == 0x80) = true := by decide

/-- V-LS-3. -/
theorem test_ldy_absolute_x : gives (step (({ ready 0x0600 [0xBC, 0x34, 0x12] with x := 0x01 }).writeByte 0x1235 0x07))
    (fun t => t.y == 0x07 && t.pc == 0x0603) = true := by decide

/-- V-LS-4. -/
theorem test_sta_indirect_x : gives (step (({ ready 0x0600 [0x81, 0x20] with a := 0x5A, x := 0x04, p := 0x02 }).writeByte 0x25 0x30))
    (fun t => t.readByte 0x3000 == 0x5A && t.p == 0x02) = true := by decide

/-- V-LS-7. -/
theorem test_sta_own_operand : gives (step ({ ready 0x0600 [0x8D, 0x01, 0x06] with a := 0xEA }))
    (fun t => t.readByte 0x0601 == 0xEA && t.pc == 0x0603) = true := by decide

/-- V-LS-6. -/
theorem test_stx_zero : gives (step ((ready 0x0600 [0x8E, 0x00, 0x03]).writeByte 0x0300 0x77))
    (fun t => t.readByte 0x0300 == 0x00 && t.p == 0x00) = true := by decide

/-- V-LS-5. -/
theorem test_sty_zero_page_x_wraps : gives (step ({ ready 0x0600 [0x94, 0xFF] with y := 0x07, x := 0x01 }))
    (fun t => t.readByte 0x0000 == 0x07 && t.pc == 0x0602) = true := by decide

/-! ### Dispatch loop, errors, reset and load -/

/-- V-DL-1. -/
theorem test_fetch_wraps : gives (step (ready 0xFFFF [0xE8]))
    (fun t => t.pc == 0x0000 && t.x == 0x01) = true := by decide

/-- V-DL-2. -/
theorem test_unsupported : gives (step (ready 0x0600 [0xEA]))
    (fun t => decide (t = { ready 0x0600 [0xEA] with pc := 0x0601, rs := .faulted (.unsupportedOpcode 0xEA) })) = true := by decide

/-- V-DL-3. -/
theorem test_run_while_faulted : hostCall (.runWithCallback []) ((ready 0 []).setRs (.faulted (.unsupportedOpcode 0x02))) = (ready 0 []).setRs (.faulted (.unsupportedOpcode 0x02)) := by decide

/-- V-DL-4. -/
theorem test_hook_halts : gives (step ({ ready 0x0600 [0xE8] with hook := [⟨[], .halt⟩] }))
    (fun t => t.pc == 0x0600 && t.x == 0x00 && decide (t.rs = .stopped)) = true := by decide

/-- V-DL-5. -/
theorem test_hook_writes_the_fetched_byte : gives (step ({ ready 0x0600 [0xA9, 0x05, 0x00] with hook := [⟨[.memWrite 0x0600 0x00], .continue⟩] }))
    (fun t => t.pc == 0x0601 && t.a == 0x00 && decide (t.rs = .stopped)) = true := by decide

/-- V-RS-1. -/
theorem test_reset_of_new : resetAction (State.new Params.tested) = State.reset ∧ State.reset.pc = 0x0000 ∧ State.reset.sp = 0xFF := by decide

/-- V-RS-2. -/
theorem test_load : (loadAction [0xA9, 0x01] State.reset).mem = [(0x0600, 0xA9), (0x0601, 0x01), (0xFFFD, 0x06)] := by decide

/-- V-RS-3, V-RS-4: one byte more than the largest program is refused, the largest is not. -/
theorem test_load_limit : loadFits (List.replicate 0xFA01 0x00) State.reset = false ∧
    loadFits (List.replicate 0xFA00 0x00) State.reset = true := by
  unfold loadFits
  rw [List.length_replicate, List.length_replicate]
  decide

/-- V-RS-4's overlap, with the origin at the vector: the vector is written after the bytes. -/
theorem test_load_over_the_vector : (loadAction [0x11, 0x22] { State.reset with params := ⟨0xFF, 0xFFFC, .linear16⟩ }).mem =
    [(0xFFFC, 0xFC), (0xFFFD, 0xFF)] := by decide

/-- R210: a register read is allowed always, a memory read is not. -/
theorem test_register_read_while_running : callReply (.act (.readReg .x)) { ready 0x0600 [] with x := 0x12 } = .byte 0x12 ∧
    callReply (.act (.memRead 0x0600)) (ready 0x0600 []) = .refused := by decide

/-- V-RS-5. -/
theorem test_reset_action : resetAction { State.reset.writeWord 0xFFFC 0x0600 with a := 0x12, p := 0xC3 } =
    { State.reset.writeWord 0xFFFC 0x0600 with pc := 0x0600 } := by decide

/-- The host's placement: the very next step after reset runs the instruction. -/
theorem test_placed_word_runs_first : gives (step (State.reset.withFetchWord 16 0x80A9))
    (fun t => t.a == 0x80 && t.p == 0x80 && t.pc == 0x0002) = true := by decide

/-- R211, R230, R232: how a program comes to run. -/
theorem test_load_and_run_from_reset : gives (step ({ State.reset with calls := [.loadAndRun [0xE8]] }))
    (fun t => t.pc == 0x0600 && decide (t.rs = .running) && t.readByte 0x0600 == 0xE8) = true := by decide

/-- Writing what an unlisted address reads as unlists it (log 16). -/
theorem test_memory_drops_a_zero : Memory.write [(1, 0x11), (2, 0x22)] 1 0x00 = [(2, 0x22)] := by decide

/-! ### Witnesses: for every statement with hypotheses, states and operands that meet them, at boundary values -/

/-- A run in progress with a full register file. -/
def busy : State := { ready 0x0600 [0x69, 0x01] with a := 0x80, x := 0xFF, y := 0x01, p := 0xC3 }

/-- The same in the state the handler of `bytes` runs in. -/
def handling (bytes : List Byte) : State :=
  { operandAt0601 bytes with a := 0x80, x := 0xFF, y := 0x01, p := 0xC3 }

/-- A run that has ended with an error. -/
def failed : State := busy.setRs (.faulted (.unsupportedOpcode 0xFF))

theorem wit_DecodeOfEncodeIsTheInstruction : Code.wellFormed ⟨.jsr, .word 0xFF 0x00⟩ = true ∧
    Code.wellFormed ⟨.bne, .byte 0x80⟩ = true ∧ Code.wellFormed ⟨.brk, .none⟩ = true := by decide

theorem wit_EncodeOfDecodeIsTheBytes :
    decode [0x20, 0xFF, 0x00, 0xEA] = .ok (⟨.jsr, .word 0xFF 0x00⟩, [0xEA]) := rfl

theorem wit_WordReadIsLittleEndian : (0x0000#16).toNat = ((0xFFFF#16).toNat + 1) % 65536 ∧
    (0x0100#16).toNat = ((0x00FF#16).toNat + 1) % 65536 := by decide

theorem wit_ByteWriteChangesOneCell : Memory.wf busy.mem = true ∧ (0x0000#16 ≠ 0xFFFF#16) := by decide

theorem wit_CanonicalMemoriesWithEqualReadsAreEqual : Memory.wf busy.mem = true ∧ busy.mem ≠ [] ∧
    Memory.wf ((busy.writeByte 5 0x12).writeByte 5 0x00).mem = true := by decide

theorem wit_CanonicalMemories_equal_reads : ∀ addr : Word, Memory.read busy.mem addr.toNat =
    Memory.read ((busy.writeByte 5 0x12).writeByte 5 0x00).mem addr.toNat := by
  have h : ((busy.writeByte 5 0x12).writeByte 5 0x00).mem = busy.mem := by decide
  intro addr
  rw [h]

theorem wit_ResolverGivesTheModesAddress : (0xFF : Nat) = ((handling [0xFF, 0x12]).readByte 0x0601).toNat ∧
    (0x12 : Nat) = ((handling [0xFF, 0x12]).readByte (0x0601 + 1)).toNat := by decide

theorem wit_ResolverRefusesTwoModes : Mode.relative ≠ .noneAddressing ∧ Mode.relative ≠ .accumulator ∧
    (Mode.accumulator = .noneAddressing ∨ Mode.accumulator = .accumulator) := by decide

theorem wit_IndexedZeroPageAndStackStayInTheirPages : ea .zeroPage (handling [0xFF]) = .ok 0x00FF ∧
    ea .zeroPageX (handling [0xFF]) = .ok 0x00FE ∧ ea .zeroPageY (handling [0xFF]) = .ok 0x0000 := ⟨rfl, rfl, rfl⟩

theorem wit_AdcAddsWithoutCarryIn : (Instr.adcIndirectY, Mode.indirectY, 0x71#8) ∈ Forms.adc := by decide
theorem wit_SbcSubtractsWithoutBorrowIn : (Instr.sbcZeroPageX, Mode.zeroPageX, 0xF5#8) ∈ Forms.sbc := by decide
theorem wit_AndMasksTheAccumulator : (Instr.andAbsoluteY, Mode.absoluteY, 0x39#8) ∈ Forms.and := by decide
theorem wit_CmpSetsFlagsOnly : (Instr.cmpIndirectX, Mode.indirectX, 0xC1#8) ∈ Forms.cmp := by decide
theorem wit_CpxTakesNegativeFromTheRegister : (Instr.cpxAbsolute, Mode.absolute, 0xEC#8) ∈ Forms.cpx := by decide
theorem wit_LdaLoadsTheByte : (Instr.ldaAbsoluteX, Mode.absoluteX, 0xBD#8) ∈ Forms.lda := by decide
theorem wit_LdxLoadsTheByte : (Instr.ldxZeroPageY, Mode.zeroPageY, 0xB6#8) ∈ Forms.ldx := by decide
theorem wit_LdyLoadsTheByte : (Instr.ldyImmediate, Mode.immediate, 0xA0#8) ∈ Forms.ldy := by decide

theorem wit_AslMemoryShiftsTheCellLeft : (Instr.aslZeroPageX, Mode.zeroPageX, 0x16#8) ∈ Forms.aslMem ∧
    Memory.wf (handling [0x01]).mem = true ∧ eaOf .zeroPageX (handling [0x01]) = some 0x0000 ∧
    (0xFFFF#16 ≠ 0x0000#16) := by decide

theorem wit_StaStoresOneByte : (Instr.staAbsoluteX, Mode.absoluteX, 0x9D#8) ∈ Forms.sta ∧
    Memory.wf (handling [0x02, 0xFF]).mem = true ∧ eaOf .absoluteX (handling [0x02, 0xFF]) = some 0x0001 := by decide

theorem wit_StxStoresOneByte : (Instr.stxZeroPageY, Mode.zeroPageY, 0x96#8) ∈ Forms.stx ∧
    Memory.wf (handling [0xFF]).mem = true ∧ eaOf .zeroPageY (handling [0xFF]) = some 0x0000 := by decide

theorem wit_StyStoresOneByte : (Instr.styAbsolute, Mode.absolute, 0x8C#8) ∈ Forms.sty ∧
    Memory.wf (handling [0xFF, 0xFF]).mem = true ∧ eaOf .absolute (handling [0xFF, 0xFF]) = some 0xFFFF := by decide

/-- The load runs where a program would have it: after the store, with PC at its own operand byte and A changed. -/
theorem wit_StoreThenLoadRoundTrip : (Instr.staIndirectY, Mode.indirectY, 0x91#8) ∈ Forms.sta ∧
    (Instr.ldaIndirectY, Mode.indirectY, 0xB1#8) ∈ Forms.lda ∧ Memory.wf (handling [0x40, 0xB1, 0x40]).mem = true ∧
    exec .staIndirectY (handling [0x40, 0xB1, 0x40]) = .next ((handling [0x40, 0xB1, 0x40]).writeByte 0x0001 0x80) ∧
    ({ (handling [0x40, 0xB1, 0x40]).writeByte 0x0001 0x80 with pc := 0x0603, a := 0x11 } : State).mem =
      ((handling [0x40, 0xB1, 0x40]).writeByte 0x0001 0x80).mem ∧
    ea .indirectY { (handling [0x40, 0xB1, 0x40]).writeByte 0x0001 0x80 with pc := 0x0603, a := 0x11 } =
      ea .indirectY (handling [0x40, 0xB1, 0x40]) :=
  ⟨by decide, by decide, by decide, rfl, rfl, rfl⟩

theorem wit_BranchesWriteThePcOnlyWhenTaken : (Instr.bpl, 0x10#8, 7, false) ∈ Forms.branch ∧
    (ready 0x0601 [0x80]).p.getLsbD 7 = false ∧ busy.p.getLsbD 7 ≠ false := by decide

/-- Not taken, taken with d = 0xFF, and taken with d = 0x80. -/
theorem wit_BranchStepLeavesThePcAtTheTarget : (Instr.bcs, 0xB0#8, 0, true) ∈ Forms.branch ∧
    (Goes (ready 0x0600 [0xB0, 0x80]) ∧ (ready 0x0600 [0xB0, 0x80]).p.getLsbD 0 ≠ true) ∧
    (Goes { busy.writeBytes 0x0600 [0xB0, 0xFF] with p := 1 } ∧
      ({ busy.writeBytes 0x0600 [0xB0, 0xFF] with p := 1 } : State).readByte (0x0600 + 1) = 0xFF) ∧
    (Goes { busy.writeBytes 0x0600 [0xB0, 0x80] with p := 1 } ∧
      OpcodeOf { busy.writeBytes 0x0600 [0xB0, 0x80] with p := 1 } = 0xB0 ∧
      ({ busy.writeBytes 0x0600 [0xB0, 0x80] with p := 1 } : State).p.getLsbD 0 = true) := by
  unfold Goes
  decide

theorem wit_PushWritesThenDecrements : Memory.wf (busy.setSp 0x00).mem = true ∧
    (0x01FF#16).toNat ≠ 0x100 + (busy.setSp 0x00).sp.toNat := by decide

theorem wit_PopIncrementsThenReads : (0x0100#16).toNat = 0x100 + ((busy.setSp 0xFF).sp.toNat + 1) % 256 ∧
    (0x01FF#16).toNat = 0x100 + ((busy.setSp 0xFE).sp.toNat + 1) % 256 := by decide

theorem wit_PopReturnsThePushedByte : Memory.wf (busy.setSp 0x00).mem = true := by decide

/-- With SP at 0x00 the second push wraps, with SP at 0xFF it does not. -/
theorem wit_JsrPushesTheReturnAndJumps : Memory.wf (handling [0x0A, 0x06]).mem = true ∧
    (0x0100#16).toNat = 0x100 + (0x00#8).toNat ∧ (0x01FF#16).toNat = 0x100 + ((0x00#8).toNat + 255) % 256 ∧
    (0x01FF#16).toNat = 0x100 + (0xFF#8).toNat ∧ (0x01FE#16).toNat = 0x100 + ((0xFF#8).toNat + 255) % 256 := by decide

theorem wit_RtsPopsTheReturnAddress :
    (0x0100#16).toNat = 0x100 + ((0xFF#8).toNat + 1) % 256 ∧ (0x0101#16).toNat = 0x100 + ((0xFF#8).toNat + 2) % 256 ∧
    (0x01FF#16).toNat = 0x100 + ((0xFE#8).toNat + 1) % 256 ∧ (0x0100#16).toNat = 0x100 + ((0xFE#8).toNat + 2) % 256 := by
  decide

theorem wit_ReturnGoesPastTheCall : Memory.wf (handling [0x0A, 0x06]).mem = true := by decide

/-- A call elsewhere, a call to the address of its own operand, and a return. -/
theorem wit_CallAndReturnStepsLeaveThePc :
    (Goes (ready 0x0600 [0x20, 0x0A, 0x06]) ∧ OpcodeOf (ready 0x0600 [0x20, 0x0A, 0x06]) = 0x20 ∧
      (ready 0x0600 [0x20, 0x0A, 0x06]).readWord 0x0601 ≠ 0x0601) ∧
    (Goes (ready 0x0600 [0x20, 0x01, 0x06]) ∧ (ready 0x0600 [0x20, 0x01, 0x06]).readWord 0x0601 = 0x0601) ∧
    (Goes (ready 0x0600 [0x60]) ∧ OpcodeOf (ready 0x0600 [0x60]) = 0x60) := by
  unfold Goes
  decide

theorem wit_BrkStopsTheRun : Goes (ready 0x0700 [0x00]) ∧ OpcodeOf (ready 0x0700 [0x00]) = 0x00 ∧
    hostWindow (ready 0x0700 [0x00]) = ready 0x0700 [0x00] := by
  unfold Goes
  decide

theorem wit_InstructionsNeverFault : busy.rs.isFaulted = false := by decide

/-- V-ADC-3 changes C, Z and V from P = 0x00; V-ADC-4 changes N. -/
theorem wit_FlagsAreWrittenOnlyByTheirWriters :
    exec .adcImmediate { operandAt0601 [0x80] with a := 0x80 } = .next { operandAt0601 [0x80] with a := 0x00, p := 0x43 } ∧
    exec .adcImmediate { operandAt0601 [0x50] with a := 0x50 } = .next { operandAt0601 [0x50] with a := 0xA0, p := 0xC0 } :=
  ⟨rfl, rfl⟩

/-- One instruction for each clause. -/
theorem wit_RegistersAreWrittenOnlyByTheirWriters :
    gives (exec .ldaImmediate (handling [0x12])) (fun t => t.a != 0x80) = true ∧
    gives (exec .inx (handling [])) (fun t => t.x != 0xFF) = true ∧
    gives (exec .ldyImmediate (handling [0x12])) (fun t => t.y != 0x01) = true ∧
    gives (exec .rts (handling [])) (fun t => t.sp != 0xFF && t.pc != 0x0601) = true ∧
    gives (exec .brk (handling [])) (fun t => decide (t.rs ≠ .running)) = true ∧
    gives (exec .staZeroPage (handling [0x12])) (fun t => t.readByte 0x0012 != 0x00) = true := by decide

theorem wit_ReservedStatusBitsHaveNoEffect : SameFlags 0xFF busy.p := by
  unfold SameFlags
  decide

theorem wit_CarryIsNoInputToArithmetic : OneOf .adcImmediate [.adc, .sbc, .and, .asl, .cmp, .cpx] ∧
    ¬ OneOf .adcImmediate [.and] ∧ OneOf .andImmediate [.adc, .sbc, .and, .asl, .cmp, .cpx] ∧ OneOf .andImmediate [.and] ∧
    ∀ k : Nat, k < 8 → k ≠ 0 → (0xC2#8).getLsbD k = busy.p.getLsbD k := by
  unfold OneOf
  decide

theorem wit_CarryIsNoInputToArithmetic_bits : ∀ k : Nat, k ≠ 0 → (0xC2#8).getLsbD k = (0xC3#8).getLsbD k := by
  intro k hk
  rcases Nat.lt_or_ge k 8 with h | h
  · exact (by decide : ∀ k : Nat, k < 8 → k ≠ 0 → (0xC2#8).getLsbD k = (0xC3#8).getLsbD k) k h hk
  · rw [BitVec.getLsbD_of_ge _ _ h, BitVec.getLsbD_of_ge _ _ h]

/-- An instruction that writes A and one that does not touch it. -/
theorem wit_AccumulatorIsReadOnlyByItsReaders :
    (¬ OneOf .txa [.adc, .sbc, .and, .cmp, .sta, .tax] ∧ Instr.txa ≠ .aslAccumulator ∧ OneOf .txa [.lda, .txa]) ∧
    (¬ OneOf .jsr [.adc, .sbc, .and, .cmp, .sta, .tax] ∧ Instr.jsr ≠ .aslAccumulator ∧ ¬ OneOf .jsr [.lda, .txa]) := by
  unfold OneOf
  decide

theorem wit_StepRunsTheDecodedInstruction : Goes busy ∧ busy = hostWindow busy ∧
    decode [busy.readByte busy.pc, busy.readByte (busy.pc + 1), busy.readByte (busy.pc + 2)] =
      .ok (⟨.adcImmediate, .byte 0x01⟩, [0x00]) ∧ Code.wellFormed ⟨.adcImmediate, .byte 0x01⟩ = true :=
  ⟨⟨by decide, by decide⟩, by decide, rfl, by decide⟩

/-- The hook halts; an unsupported byte; BRK; a taken branch; an instruction that leaves PC. -/
theorem wit_StepIsTheDispatchLoop :
    (busy.rs = .running ∧ (hostWindow { busy with hook := [⟨[], .halt⟩] }).rs ≠ .running) ∧
    (Goes (ready 0x0600 [0x4C]) ∧ lookup (OpcodeOf (ready 0x0600 [0x4C])) = none) ∧
    (lookup (OpcodeOf (ready 0x0600 [0x00])) = some .brk ∧
      gives (exec .brk (Fetched (ready 0x0600 [0x00]))) (fun u => decide (u.rs ≠ .running)) = true) ∧
    (lookup (OpcodeOf (ready 0x0600 [0x90, 0x04])) = some .bcc ∧
      gives (exec .bcc (Fetched (ready 0x0600 [0x90, 0x04]))) (fun u => u.pc != 0x0601) = true) ∧
    (lookup (OpcodeOf busy) = some .adcImmediate ∧
      gives (exec .adcImmediate (Fetched busy)) (fun u => u.pc == 0x0601 && decide (u.rs = .running)) = true) := by
  unfold Goes
  decide

theorem wit_UnsupportedByteFaultsTheRun : Goes (ready 0xFFFF [0xFF]) ∧ OpcodeOf (ready 0xFFFF [0xFF]) ∈ Forms.unsupported ∧
    ready 0xFFFF [0xFF] = hostWindow (ready 0xFFFF [0xFF]) := by
  unfold Goes
  decide

theorem wit_StraightLineStepAdvancesByTheLength : Goes (ready 0xFFFF [0x8D]) ∧
    lookup (OpcodeOf (ready 0xFFFF [0x8D])) = some .staAbsolute ∧
    ¬ OneOf .staAbsolute [.bcc, .bcs, .beq, .bne, .bpl, .jsr, .rts, .brk] := by
  unfold Goes OneOf
  decide

/-- `STA $0603` and `ASL $0603` at 0x0600, and calls to the cells their pushes write. -/
theorem wit_StoreIntoTheNextInstructionIsFetched :
    (Goes (ready 0x0600 [0x8D, 0x03, 0x06]) ∧ Memory.wf (ready 0x0600 [0x8D, 0x03, 0x06]).mem = true ∧
      (Instr.staAbsolute, Mode.absolute, 0x8D#8) ∈ Forms.sta ++ Forms.stx ++ Forms.sty ++ Forms.aslMem ∧
      OpcodeOf (ready 0x0600 [0x8D, 0x03, 0x06]) = 0x8D ∧
      eaOf .absolute (Fetched (ready 0x0600 [0x8D, 0x03, 0x06])) = some (0x0600 + BitVec.ofNat 16 (Instr.length .staAbsolute))) ∧
    ((Instr.aslAbsolute, Mode.absolute, 0x0E#8) ∈ Forms.sta ++ Forms.stx ++ Forms.sty ++ Forms.aslMem ∧
      OneOf .aslAbsolute [.asl] ∧ OneOf .stxAbsolute [.stx] ∧ OneOf .styAbsolute [.sty] ∧
      eaOf .absolute (Fetched (ready 0x0600 [0x0E, 0x03, 0x06])) = some (0x0600 + BitVec.ofNat 16 (Instr.length .aslAbsolute))) ∧
    (OpcodeOf (ready 0x0600 [0x20, 0xFF, 0x01]) = 0x20 ∧
      gives (step (ready 0x0600 [0x20, 0xFF, 0x01])) (fun u => u.pc == 0x01FF && u.readByte u.pc == 0x06) = true) ∧
    gives (step (ready 0x0600 [0x20, 0xFE, 0x01])) (fun u => u.pc == 0x01FE && u.readByte u.pc == 0x02) = true := by
  unfold Goes OneOf
  decide

/-- The three ways: the hook, BRK, an unsupported byte. -/
theorem wit_RunEndsInThreeWays :
    gives (step { busy with hook := [⟨[], .halt⟩] }) (fun t => decide (t.rs ≠ .running)) = true ∧
    gives (step (ready 0x0600 [0x00])) (fun t => decide (t.rs ≠ .running)) = true ∧
    gives (step (ready 0x0600 [0x02])) (fun t => decide (t.rs ≠ .running)) = true := by decide

theorem wit_HostWindowRunsBeforeTheFetch : busy.rs = .running ∧
    ({ busy with hook := [⟨[.reset], .halt⟩] } : State).hook = ⟨[.reset], .halt⟩ :: [] ∧
    ({ busy with hook := [⟨[.reset], .continue⟩] } : State).hook = ⟨[.reset], .continue⟩ :: [] ∧ busy.hook = [] := by decide

theorem wit_HostWriteInTheWindowIsFetched : busy.rs = .running ∧ Memory.wf busy.mem = true ∧
    ({ busy with hook := [⟨[.memWrite 0x0600 0x00], .continue⟩] } : State).hook =
      ⟨[.memWrite busy.pc 0x00], .continue⟩ :: [] ∧ lookup 0xEA = none := by decide

theorem wit_HostWindowCanReachAnyStore : Memory.wf busy.mem = true ∧ Memory.wf (ready 0x1234 [0xFF]).mem = true ∧
    (ready 0x1234 [0xFF]).rs = busy.rs ∧ (ready 0x1234 [0xFF]).hook = busy.hook ∧
    (ready 0x1234 [0xFF]).calls = busy.calls ∧ (ready 0x1234 [0xFF]).params = busy.params := by decide

/-- A program that just fits, one that is one byte too long, a byte beside the vector, and an address outside. -/
theorem wit_LoadCopiesTheProgramAndSetsTheVector : Memory.wf busy.mem = true ∧
    (0xFFFB : Nat) = ({ busy with params := ⟨0xFF, 0xFFFB, .linear16⟩ } : State).params.programOrigin.toNat ∧
    0xFFFB + [0x11#8, 0x22, 0x33, 0x44, 0x55].length ≤ 65536 ∧
    0xFFFB + [0x11#8, 0x22, 0x33, 0x44, 0x55, 0x66].length > 65536 ∧
    [0x11#8, 0x22, 0x33, 0x44, 0x55][4]? = some 0x55 ∧ (0xFFFB + 4 ≠ 0xFFFC ∧ 0xFFFB + 4 ≠ 0xFFFD) ∧
    (0xFFFA#16).toNat < 0xFFFB := by decide

theorem wit_LoadAndRunBoots : State.reset.rs = .stopped ∧ Memory.wf State.reset.mem = true ∧
    ({ State.reset with calls := [.loadAndRun [0xE8]] } : State).calls = .loadAndRun [0xE8] :: [] ∧
    loadFits [0xE8] State.reset = true ∧
    ({ State.reset with calls := [.runWithCallback []] } : State).calls = .runWithCallback [] :: [] ∧
    State.reset.calls = [] := by decide

theorem wit_HostRegisterAndWordWrites : Memory.wf busy.mem = true ∧ (0x0001#16 ≠ 0xFFFF#16) ∧
    (0x0001#16 ≠ 0xFFFF#16 + 1) := by decide

theorem wit_FaultedIsFinal : failed.rs = .faulted (.unsupportedOpcode 0xFF) ∧ isRead .reset = false := by decide

/-- A state that meets the invariant, and steps that answer a next state from it. -/
theorem wit_InvariantKeptByEveryStep : busy.inv = true ∧ gives (step busy) (fun _ => true) = true ∧
    failed.inv = true ∧ gives (step failed) (fun _ => true) = true := by decide

end Sys2Proof.Tests
end

/-! The resolver's addresses as numbers: the sums of the indexed modes wrap at 8 or at 16 bits (R91 to R99). -/

namespace Sys2Proof.Machine

theorem zext16_eq_ofNat (b : Byte) : zext16 b = BitVec.ofNat 16 b.toNat :=
  (BitVec.ofNat_toNat 16 b).symm

/-- `add8` as a number (R7). -/
theorem add8_eq_ofNat (b c : Byte) : b + c = BitVec.ofNat 8 ((b.toNat + c.toNat) % 256) :=
  BitVec.eq_of_toNat_eq (by simp)

/-- `add16` of a word and a widened byte, as a number: the sum crosses pages and wraps at 16 bits (R95). -/
theorem add16_zext16_eq_ofNat (w : Word) (b : Byte) :
    w + zext16 b = BitVec.ofNat 16 ((w.toNat + b.toNat) % 65536) :=
  BitVec.eq_of_toNat_eq (by simp [zext16_toNat])

/-- A word is read low byte first (R42). -/
theorem State.readWord_toNat (s : State) (addr : Word) :
    (s.readWord addr).toNat = (s.readByte addr).toNat + 256 * (s.readByte (addr + 1)).toNat := by
  rw [State.readWord, concat16_toNat]
  omega

theorem State.readWord_eq_ofNat (s : State) (addr : Word) :
    s.readWord addr = BitVec.ofNat 16 ((s.readByte addr).toNat + 256 * (s.readByte (addr + 1)).toNat) := by
  rw [← State.readWord_toNat, BitVec.ofNat_toNat, BitVec.setWidth_eq]

/-- The indexed zero-page address stays in page zero: the sum wraps before it is widened (R93). -/
theorem zext16_add8_eq_ofNat (b c : Byte) :
    zext16 (b + c) = BitVec.ofNat 16 ((b.toNat + c.toNat) % 256) := by
  rw [zext16_eq_ofNat, BitVec.toNat_add]

/-- The indexed absolute address, from its two operand bytes (R94, R95). -/
theorem State.readWord_add_zext16_eq_ofNat (s : State) (addr : Word) (b : Byte) :
    s.readWord addr + zext16 b =
      BitVec.ofNat 16 (((s.readByte addr).toNat + 256 * (s.readByte (addr + 1)).toNat + b.toNat) % 65536) := by
  rw [add16_zext16_eq_ofNat, State.readWord_toNat]

/-- Settles O7, mode by mode: each conjunct is the resolver's own answer with its sum read as a number. -/
theorem resolverGivesTheModesAddress : Obligations.ResolverGivesTheModesAddress := by
  rintro s b lo hi rfl rfl rfl
  refine ⟨?immediate, ?relative, ?zeroPage, ?zeroPageX, ?zeroPageY, ?absolute, ?absoluteX, ?absoluteY, ?indirectX⟩
  case immediate => rfl
  case relative => rfl
  case zeroPage => exact congrArg Except.ok (zext16_eq_ofNat _)
  case zeroPageX => exact congrArg Except.ok (zext16_add8_eq_ofNat _ s.x)
  case zeroPageY => exact congrArg Except.ok (zext16_add8_eq_ofNat _ s.y)
  case absolute => exact congrArg Except.ok (s.readWord_eq_ofNat s.pc)
  case absoluteX => exact congrArg Except.ok (s.readWord_add_zext16_eq_ofNat s.pc s.x)
  case absoluteY => exact congrArg Except.ok (s.readWord_add_zext16_eq_ofNat s.pc s.y)
  case indirectX => exact congrArg (fun z => Except.ok (readPtr z s)) (add8_eq_ofNat _ s.x)

end Sys2Proof.Machine

/-! Arithmetic, logic and compare (41_arith_logic.md): each form of ADC, AND and CMP is its shared operation at the address
its mode resolves to, and the status byte it leaves is read off flag by flag. -/

namespace Sys2Proof.Machine

/-! ### The forms of each rule -/

/-- The listed forms of ADC, AND and CMP stand in the opcode table, in modes that the resolver serves (R66, R90). -/
theorem lookup_and_served_mode_of_form : ∀ form ∈ Forms.adc ++ Forms.and ++ Forms.cmp,
    lookup form.2.2 = some form.1 ∧ form.2.1 ≠ .accumulator ∧ form.2.1 ≠ .noneAddressing := by
  decide

theorem exec_of_mem_adc : ∀ form ∈ Forms.adc, ∀ s, exec form.1 s = adc form.2.1 s := by
  simp only [Forms.adc, List.forall_mem_cons]
  exact ⟨exec_adcImmediate, exec_adcZeroPage, exec_adcZeroPageX, exec_adcAbsolute, exec_adcAbsoluteX, exec_adcAbsoluteY,
    exec_adcIndirectX, exec_adcIndirectY, nofun⟩

theorem exec_of_mem_and : ∀ form ∈ Forms.and, ∀ s, exec form.1 s = andA form.2.1 s := by
  simp only [Forms.and, List.forall_mem_cons]
  exact ⟨exec_andImmediate, exec_andZeroPage, exec_andZeroPageX, exec_andAbsolute, exec_andAbsoluteX, exec_andAbsoluteY,
    exec_andIndirectX, exec_andIndirectY, nofun⟩

theorem exec_of_mem_cmp : ∀ form ∈ Forms.cmp, ∀ s, exec form.1 s = cmp form.2.1 s := by
  simp only [Forms.cmp, List.forall_mem_cons]
  exact ⟨exec_cmpImmediate, exec_cmpZeroPage, exec_cmpZeroPageX, exec_cmpAbsolute, exec_cmpAbsoluteX, exec_cmpAbsoluteY,
    exec_cmpIndirectX, exec_cmpIndirectY, nofun⟩

/-- A listed form whose rule resolves an address is the instruction of its opcode byte, and it answers the rest of the rule
at the address its mode resolves to. -/
theorem exec_served_of_form {form : Instr × Mode × Byte} {s : State} {rest : Word → State}
    (hform : form ∈ Forms.adc ++ Forms.and ++ Forms.cmp) (hexec : exec form.1 s = withEa form.2.1 s rest) :
    lookup form.2.2 = some form.1 ∧ ∃ addr, ea form.2.1 s = .ok addr ∧ exec form.1 s = .next (rest addr) := by
  obtain ⟨hlookup, ha, hn⟩ := lookup_and_served_mode_of_form form hform
  exact ⟨hlookup, hexec ▸ withEa_served s rest ha hn⟩

/-! ### The status byte, flag by flag -/

/-- What `addFlags` leaves in each flag (R101). -/
theorem State.flag_addFlags (s : State) (a m : Byte) (f : Flag) :
    (s.addFlags a m).flag f = match f with
      | .c => decide (a.toNat + m.toNat > 255)
      | .v => signedOverflow (a.toInt + m.toInt)
      | .z => s.flag .z
      | .n => s.flag .n := by
  cases f <;> simp [State.addFlags, State.flag_setFlag_other]

/-- What `cmpFlags` leaves in each flag (R103). -/
theorem State.flag_cmpFlags (s : State) (r m : Byte) (f : Flag) :
    (s.cmpFlags r m).flag f = match f with
      | .c => decide (r.toNat ≥ m.toNat)
      | .v => s.flag .v
      | .z => decide (r - m = 0)
      | .n => (r - m).msb := by
  cases f <;> simp [State.cmpFlags, State.flag_setZN, State.flag_setFlag_other]

@[simp] theorem State.reservedBits_setA (s : State) (v : Byte) : (s.setA v).reservedBits = s.reservedBits := rfl

@[simp] theorem State.reservedBits_addFlags (s : State) (a m : Byte) :
    (s.addFlags a m).reservedBits = s.reservedBits := by
  simp [State.addFlags]

@[simp] theorem State.reservedBits_cmpFlags (s : State) (r m : Byte) :
    (s.cmpFlags r m).reservedBits = s.reservedBits := by
  simp [State.cmpFlags]

/-- A status byte is described by its four flags, when bits 5 to 2 are kept (R25, R27). -/
theorem status_of_flags {s t : State} {n v z c : Bool} (hn : t.flag .n = n) (hv : t.flag .v = v) (hz : t.flag .z = z)
    (hc : t.flag .c = c) (hr : t.reservedBits = s.reservedBits) : Say.Status s.p t.p n v z c :=
  ⟨hn, hv, hz, hc, hr⟩

/-! ### Bytes as numbers -/

theorem byte_eq_zero_iff (v : Byte) : v = 0 ↔ v.toNat = 0 :=
  BitVec.toNat_inj.symm

/-- The 8-bit difference as an integer (R7). -/
theorem sub8_toNat (b c : Byte) : ((b - c).toNat : Int) = ((b.toNat : Int) - c.toNat) % 256 := by
  have := b.isLt
  have := c.isLt
  rw [BitVec.toNat_sub]
  omega

theorem sub8_eq_zero_iff (b c : Byte) : b - c = 0 ↔ b.toNat = c.toNat := by
  rw [sub_eq_zero, BitVec.toNat_inj]

/-! ### The status byte each rule leaves -/

theorem adc_status (s : State) (m : Byte) :
    Say.Status s.p (((s.addFlags s.a m).setA (s.a + m)).setZN (s.a + m)).p (s.a + m).msb
      (decide (s.a.toInt + m.toInt < -128 ∨ s.a.toInt + m.toInt > 127))
      (decide ((s.a.toNat + m.toNat) % 256 = 0)) (decide (s.a.toNat + m.toNat > 255)) := by
  apply status_of_flags
  case hn => rw [State.flag_setZN]
  case hv => simp only [State.flag_setZN, State.flag_setA, State.flag_addFlags, signedOverflow]
  case hz => simp only [State.flag_setZN, byte_eq_zero_iff, BitVec.toNat_add]
  case hc => simp only [State.flag_setZN, State.flag_setA, State.flag_addFlags]
  case hr => simp

/-- The status byte after a result is written to A with its Z and N (R100). -/
theorem setA_setZN_status (s : State) (r : Byte) :
    Say.Status s.p ((s.setA r).setZN r).p (r.getLsbD 7) (s.p.getLsbD 6) (decide (r.toNat = 0)) (s.p.getLsbD 0) := by
  apply status_of_flags
  case hn => rw [State.flag_setZN, BitVec.msb_eq_getLsbD_last]
  case hv => rw [State.flag_setZN]; rfl
  case hz => simp only [State.flag_setZN, byte_eq_zero_iff]
  case hc => rw [State.flag_setZN]; rfl
  case hr => simp

theorem cmpFlags_status (s : State) (r m : Byte) :
    Say.Status s.p (s.cmpFlags r m).p ((r - m).getLsbD 7) (s.p.getLsbD 6) (decide (r.toNat = m.toNat))
      (decide (r.toNat ≥ m.toNat)) := by
  apply status_of_flags
  case hn => rw [State.flag_cmpFlags, BitVec.msb_eq_getLsbD_last]
  case hv => rw [State.flag_cmpFlags]; rfl
  case hz => simp only [State.flag_cmpFlags, sub8_eq_zero_iff]
  case hc => rw [State.flag_cmpFlags]
  case hr => simp

/-! ### The obligations -/

/-- Settles O11: the sum that wraps at 8 bits is the byte sum of A and the operand. -/
theorem adcAddsWithoutCarryIn : Obligations.AdcAddsWithoutCarryIn := by
  intro i mode op hform s
  obtain ⟨hlookup, addr, hea, hexec⟩ := exec_served_of_form (by simp [hform]) (exec_of_mem_adc _ hform s)
  simp only [← add8_eq_ofNat]
  exact ⟨hlookup, addr, s.readByte addr, _, hea, rfl, hexec, adc_status s (s.readByte addr)⟩

/-- Settles O13: the result's bits are the conjunctions of the bits of A and of the operand. -/
theorem andMasksTheAccumulator : Obligations.AndMasksTheAccumulator := by
  intro i mode op hform s
  obtain ⟨hlookup, addr, hea, hexec⟩ := exec_served_of_form (by simp [hform]) (exec_of_mem_and _ hform s)
  exact ⟨hlookup, addr, _, s.a &&& s.readByte addr, hea, fun _ => BitVec.getLsbD_and, hexec,
    setA_setZN_status s (s.a &&& s.readByte addr)⟩

/-- Settles O16: the difference of A and the operand goes to the flags and nowhere else. -/
theorem cmpSetsFlagsOnly : Obligations.CmpSetsFlagsOnly := by
  intro i mode op hform s
  obtain ⟨hlookup, addr, hea, hexec⟩ := exec_served_of_form (by simp [hform]) (exec_of_mem_cmp _ hform s)
  exact ⟨hlookup, addr, s.readByte addr, _, s.a - s.readByte addr, hea, rfl, sub8_toNat _ _, hexec,
    cmpFlags_status s s.a (s.readByte addr)⟩

end Sys2Proof.Machine

/-! Flag, increment, decrement and transfer (43_flags_incdec_transfer.md): CLC and SEC write one bit of P; INX, DEX, TAX and
TXA write a register and set Z and N from the byte written. -/

namespace Sys2Proof.Machine

theorem Flag.getLsbD_mask_of_ne {f : Flag} {k : Nat} (h : k ≠ f.bit) : f.mask.getLsbD k = false := by
  rw [Flag.mask, ← BitVec.twoPow_eq, BitVec.getLsbD_twoPow, decide_eq_false h.symm, Bool.and_false]

/-- A flag write keeps every bit of P but the flag's own (R9, R26). -/
theorem State.getLsbD_p_setFlag_of_ne (s : State) {f : Flag} (b : Bool) {k : Nat} (h : k ≠ f.bit) :
    (s.setFlag f b).p.getLsbD k = s.p.getLsbD k := by
  have hmask := Flag.getLsbD_mask_of_ne h
  cases b
  case true => simp [State.setFlag, hmask]
  case false =>
    have hrange : s.p.getLsbD k = true → k < 8 := BitVec.lt_of_getLsbD
    simpa [State.setFlag, hmask] using hrange

/-- The status byte after Z and N are set from a byte (R100); which register was written before does not matter to P. -/
theorem setZN_status (s : State) (r : Byte) :
    Say.Status s.p (s.setZN r).p (r.getLsbD 7) (s.p.getLsbD 6) (decide (r.toNat = 0)) (s.p.getLsbD 0) :=
  setA_setZN_status s r

/-- The decrement as a number: 255 is -1 modulo 256 (R7). -/
theorem sub8_one_toNat (b : Byte) : (b - 1).toNat = (b.toNat + 255) % 256 := by
  rw [BitVec.toNat_sub, Nat.add_comm]
  rfl

/-! ### The obligations -/

/-- Settles O27: each instruction is one flag write, which sets C and keeps every other bit of P. -/
theorem clcAndSecWriteTheCarryOnly : Obligations.ClcAndSecWriteTheCarryOnly := by
  refine ⟨Laws.OpcodeLookup.clc.1, Laws.OpcodeLookup.sec.1, fun s => ⟨?clc, ?sec⟩⟩
  case clc =>
    exact ⟨(s.setFlag .c false).p, exec_clc s, s.flag_setFlag_same .c false,
      fun _ hk => s.getLsbD_p_setFlag_of_ne false hk⟩
  case sec =>
    exact ⟨(s.setFlag .c true).p, exec_sec s, s.flag_setFlag_same .c true,
      fun _ hk => s.getLsbD_p_setFlag_of_ne true hk⟩

/-- Settles O28: the byte sum and the byte difference are the counts modulo 256. -/
theorem inxAndDexCountModulo256 : Obligations.InxAndDexCountModulo256 := by
  refine ⟨Laws.OpcodeLookup.inx.1, Laws.OpcodeLookup.dex.1, fun s => ⟨?inx, ?dex⟩⟩
  case inx => exact ⟨_, s.x + 1, exec_inx s, BitVec.toNat_add s.x 1, setZN_status (s.setX (s.x + 1)) (s.x + 1)⟩
  case dex => exact ⟨_, s.x - 1, exec_dex s, sub8_one_toNat s.x, setZN_status (s.setX (s.x - 1)) (s.x - 1)⟩

/-- Settles O29: the byte copied is the byte that Z and N are set from. -/
theorem transfersCopyAndSetZN : Obligations.TransfersCopyAndSetZN := by
  refine ⟨Laws.OpcodeLookup.tax.1, Laws.OpcodeLookup.txa.1, fun s => ⟨?tax, ?txa⟩⟩
  case tax => exact ⟨_, exec_tax s, setZN_status (s.setX s.a) s.a⟩
  case txa => exact ⟨_, exec_txa s, setA_setZN_status s s.x⟩

end Sys2Proof.Machine

/-! Loads and stores (45_load_store.md): each form is its shared operation at the address its mode resolves to. A load writes
its register and sets Z and N; a store writes one cell. -/

namespace Sys2Proof.Machine

/-! ### The forms of each rule -/

/-- The listed forms of the loads and the stores stand in the opcode table, in modes that the resolver serves (R66, R90). -/
theorem lookup_and_served_mode_of_load_or_store_form :
    ∀ form ∈ (Forms.lda ++ Forms.ldx ++ Forms.ldy) ++ (Forms.sta ++ Forms.stx ++ Forms.sty),
      lookup form.2.2 = some form.1 ∧ form.2.1 ≠ .accumulator ∧ form.2.1 ≠ .noneAddressing := by
  decide

theorem exec_of_mem_lda : ∀ form ∈ Forms.lda, ∀ s, exec form.1 s = lda form.2.1 s := by
  simp only [Forms.lda, List.forall_mem_cons]
  exact ⟨exec_ldaImmediate, exec_ldaZeroPage, exec_ldaZeroPageX, exec_ldaAbsolute, exec_ldaAbsoluteX, exec_ldaAbsoluteY,
    exec_ldaIndirectX, exec_ldaIndirectY, nofun⟩

theorem exec_of_mem_ldx : ∀ form ∈ Forms.ldx, ∀ s, exec form.1 s = ldx form.2.1 s := by
  simp only [Forms.ldx, List.forall_mem_cons]
  exact ⟨exec_ldxImmediate, exec_ldxZeroPage, exec_ldxZeroPageY, exec_ldxAbsolute, exec_ldxAbsoluteY, nofun⟩

theorem exec_of_mem_ldy : ∀ form ∈ Forms.ldy, ∀ s, exec form.1 s = ldy form.2.1 s := by
  simp only [Forms.ldy, List.forall_mem_cons]
  exact ⟨exec_ldyImmediate, exec_ldyZeroPage, exec_ldyZeroPageX, exec_ldyAbsolute, exec_ldyAbsoluteX, nofun⟩

theorem exec_of_mem_sta : ∀ form ∈ Forms.sta, ∀ s, exec form.1 s = store form.2.1 s.a s := by
  simp only [Forms.sta, List.forall_mem_cons]
  exact ⟨exec_staZeroPage, exec_staZeroPageX, exec_staAbsolute, exec_staAbsoluteX, exec_staAbsoluteY, exec_staIndirectX,
    exec_staIndirectY, nofun⟩

theorem exec_of_mem_stx : ∀ form ∈ Forms.stx, ∀ s, exec form.1 s = store form.2.1 s.x s := by
  simp only [Forms.stx, List.forall_mem_cons]
  exact ⟨exec_stxZeroPage, exec_stxZeroPageY, exec_stxAbsolute, nofun⟩

theorem exec_of_mem_sty : ∀ form ∈ Forms.sty, ∀ s, exec form.1 s = store form.2.1 s.y s := by
  simp only [Forms.sty, List.forall_mem_cons]
  exact ⟨exec_styZeroPage, exec_styZeroPageX, exec_styAbsolute, nofun⟩

/-! ### What a load and a store answer -/

/-- A listed load is the instruction of its opcode byte, and it answers the rest of its rule at the address its mode
resolves to. -/
theorem exec_load_of_form {form : Instr × Mode × Byte} {s : State} {rest : Word → State}
    (hform : form ∈ Forms.lda ++ Forms.ldx ++ Forms.ldy) (hexec : exec form.1 s = withEa form.2.1 s rest) :
    lookup form.2.2 = some form.1 ∧ ∃ addr, ea form.2.1 s = .ok addr ∧ exec form.1 s = .next (rest addr) := by
  obtain ⟨hlookup, ha, hn⟩ := lookup_and_served_mode_of_load_or_store_form form (List.mem_append_left _ hform)
  exact ⟨hlookup, hexec ▸ withEa_served s rest ha hn⟩

/-- A listed store of a byte is the instruction of its opcode byte, its mode resolves, and it is one byte write at the
address: the frame, the cell written and every other cell (R41). -/
theorem exec_store_of_form {form : Instr × Mode × Byte} {s : State} {v : Byte} (hwf : Memory.wf s.mem = true)
    (hform : form ∈ Forms.sta ++ Forms.stx ++ Forms.sty) (hexec : exec form.1 s = store form.2.1 v s) :
    lookup form.2.2 = some form.1 ∧ (∃ addr, ea form.2.1 s = .ok addr) ∧
    ∀ addr : Word, ea form.2.1 s = .ok addr → ∃ t : State, exec form.1 s = .next t ∧ t = { s with mem := t.mem } ∧
      t.readByte addr = v ∧ ∀ b : Word, b ≠ addr → t.readByte b = s.readByte b := by
  obtain ⟨hlookup, ha, hn⟩ := lookup_and_served_mode_of_load_or_store_form form (List.mem_append_right _ hform)
  refine ⟨hlookup, ea_ok s ha hn, fun addr hea => ⟨s.writeByte addr v, hexec.trans (withEa_of_ok hea), rfl, ?_, ?_⟩⟩
  · exact State.readByte_writeByte_same addr v hwf
  · exact fun _ hb => s.readByte_writeByte_other v hb

/-! ### The obligations -/

/-- Settles O18: the byte read goes to A, and Z and N are set from that byte. -/
theorem ldaLoadsTheByte : Obligations.LdaLoadsTheByte := by
  intro i mode op hform s
  obtain ⟨hlookup, addr, hea, hexec⟩ := exec_load_of_form (by simp [hform]) (exec_of_mem_lda _ hform s)
  exact ⟨hlookup, addr, s.readByte addr, _, hea, rfl, hexec, setZN_status (s.setA (s.readByte addr)) (s.readByte addr)⟩

/-- Settles O19: the byte read goes to X, and Z and N are set from that byte. -/
theorem ldxLoadsTheByte : Obligations.LdxLoadsTheByte := by
  intro i mode op hform s
  obtain ⟨hlookup, addr, hea, hexec⟩ := exec_load_of_form (by simp [hform]) (exec_of_mem_ldx _ hform s)
  exact ⟨hlookup, addr, s.readByte addr, _, hea, rfl, hexec, setZN_status (s.setX (s.readByte addr)) (s.readByte addr)⟩

/-- Settles O20: the byte read goes to Y, and Z and N are set from that byte. -/
theorem ldyLoadsTheByte : Obligations.LdyLoadsTheByte := by
  intro i mode op hform s
  obtain ⟨hlookup, addr, hea, hexec⟩ := exec_load_of_form (by simp [hform]) (exec_of_mem_ldy _ hform s)
  exact ⟨hlookup, addr, s.readByte addr, _, hea, rfl, hexec, setZN_status (s.setY (s.readByte addr)) (s.readByte addr)⟩

/-- Settles O21: each form is the one byte write of A. -/
theorem staStoresOneByte : Obligations.StaStoresOneByte := by
  intro i mode op hform s hwf
  exact exec_store_of_form hwf (by simp [hform]) (exec_of_mem_sta _ hform s)

/-- Settles O22: each form is the one byte write of X. -/
theorem stxStoresOneByte : Obligations.StxStoresOneByte := by
  intro i mode op hform s hwf
  exact exec_store_of_form hwf (by simp [hform]) (exec_of_mem_stx _ hform s)

/-- Settles O23: each form is the one byte write of Y. -/
theorem styStoresOneByte : Obligations.StyStoresOneByte := by
  intro i mode op hform s hwf
  exact exec_store_of_form hwf (by simp [hform]) (exec_of_mem_sty _ hform s)

end Sys2Proof.Machine

/-! The decoder and the encoder (30_encoding.md): the opcode table and the descriptors agree in both directions, and operand
bytes are split off exactly as they were put in front. -/

namespace Sys2Proof

/-! ### The opcode table -/

/-- The two tables agree on every instruction (R60, R64, R66, R67). -/
theorem opcodeLookup_statement (i : Instr) : Laws.OpcodeLookup.Statement i := by
  cases i <;> exact ⟨rfl, rfl⟩

@[simp] theorem lookup_code (i : Instr) : lookup (descriptor i).code = some i :=
  (opcodeLookup_statement i).1

/-- The converse: an instruction is looked up by its own opcode byte only (R61). -/
theorem code_of_lookup {op : Byte} {i : Instr} (h : lookup op = some i) : (descriptor i).code = op := by
  have hrows : ∀ row ∈ opcodeTable, (descriptor row.2).code = row.1 := by decide
  obtain ⟨row, hfind, rfl⟩ := Option.map_eq_some_iff.mp h
  have hop : row.1 = op := by simpa using List.find?_some hfind
  rw [hrows row (List.mem_of_find?_eq_some hfind), hop]

theorem lookup_eq_none_iff (op : Byte) : lookup op = none ↔ op ∉ opcodeTable.map Prod.fst := by
  simp only [lookup, Option.map_eq_none_iff, List.find?_eq_none, beq_iff_eq, List.mem_map, not_exists, not_and]

/-! ### Operand bytes -/

theorem takeOperand_bytes_append {o : Operand} {f : Format} (rest : List Byte) (h : o.fits f = true) :
    takeOperand f (o.bytes ++ rest) = some (o, rest) := by
  unfold Operand.fits at h
  split at h
  case h_1 | h_2 | h_3 => rfl
  all_goals cases h

theorem fits_and_bytes_append_of_takeOperand {f : Format} {bytes rest : List Byte} {o : Operand}
    (h : takeOperand f bytes = some (o, rest)) : o.fits f = true ∧ o.bytes ++ rest = bytes := by
  unfold takeOperand at h
  split at h <;> cases h <;> exact ⟨rfl, rfl⟩

/-! ### Decode and encode -/

/-- What the decoder has found whenever it accepts: a row of the table and the operand bytes of its format. -/
theorem decode_eq_ok {bytes rest : List Byte} {c : Code} (h : decode bytes = .ok (c, rest)) :
    ∃ op tail, bytes = op :: tail ∧ lookup op = some c.instr ∧
      takeOperand c.instr.mode.format tail = some (c.operand, rest) := by
  unfold decode at h
  split at h
  · cases h
  · split at h
    · cases h
    · split at h
      · cases h
      · cases h
        exact ⟨_, _, rfl, ‹_›, ‹_›⟩

/-- Settles O1: the opcode byte looks up the instruction, and its operand bytes are those the format takes. -/
theorem decodeOfEncodeIsTheInstruction : Obligations.DecodeOfEncodeIsTheInstruction := by
  intro c rest hwf
  have htake := takeOperand_bytes_append rest (show c.operand.fits c.instr.mode.format = true from hwf)
  simp only [encode, List.cons_append, decode, lookup_code, htake]

/-- Settles O2: the row found has that opcode byte only, and the operand bytes taken are those in front of the rest. -/
theorem encodeOfDecodeIsTheBytes : Obligations.EncodeOfDecodeIsTheBytes := by
  intro bytes rest c h
  obtain ⟨op, tail, rfl, hlookup, htake⟩ := decode_eq_ok h
  obtain ⟨hfits, hbytes⟩ := fits_and_bytes_append_of_takeOperand htake
  refine ⟨hfits, ?_⟩
  rw [encode, List.cons_append, hbytes, code_of_lookup hlookup]

/-- Settles O3: the decoder evaluates on each word. -/
theorem specWordsDecode : Obligations.SpecWordsDecode :=
  ⟨rfl, rfl, rfl, rfl, rfl, rfl, rfl, rfl⟩

/-! ### The unsupported bytes -/

/-- A list of bytes as the number in which their bits are set. -/
def byteMask (bytes : List Byte) : Nat := bytes.foldl (fun mask b => mask ||| 2 ^ b.toNat) 0

theorem testBit_byteMask (bytes : List Byte) (op : Byte) : (byteMask bytes).testBit op.toNat = decide (op ∈ bytes) := by
  have hfold (mask : Nat) : (bytes.foldl (fun mask b => mask ||| 2 ^ b.toNat) mask).testBit op.toNat =
      (mask.testBit op.toNat || decide (op ∈ bytes)) := by
    induction bytes generalizing mask with
    | nil => simp
    | cons b rest ih =>
      rw [List.foldl_cons, ih, Nat.testBit_or, Nat.testBit_two_pow]
      simp [BitVec.toNat_inj, Bool.or_assoc, eq_comm]
  rw [byteMask, hfold, Nat.zero_testBit, Bool.false_or]

/-- The table's opcode bytes and the 171 listed bytes fill the 256 bits, each bit once. -/
theorem byteMask_unsupported_xor_table :
    byteMask Forms.unsupported ^^^ byteMask (opcodeTable.map Prod.fst) = 2 ^ 256 - 1 := by
  simp [byteMask, Forms.unsupported, opcodeTable, opcodeRowsArith, opcodeRowsBranch, opcodeRowsCompare, opcodeRowsLoad,
    opcodeRowsRest]

/-- The 171 listed bytes are those that no row of the table has (R68). -/
theorem mem_unsupported_iff (op : Byte) : op ∈ Forms.unsupported ↔ lookup op = none := by
  have hbit := congrArg (Nat.testBit · op.toNat) byteMask_unsupported_xor_table
  simp only [Nat.testBit_xor, testBit_byteMask, Nat.testBit_two_pow_sub_one, op.isLt, decide_true] at hbit
  rw [lookup_eq_none_iff]
  by_cases h : op ∈ Forms.unsupported <;> simp_all

end Sys2Proof

/-! Every instruction as one total function of the state. The mnemonic and the addressing mode fix what an instruction does,
so a fact about all 85 rows is a fact about 26 mnemonics: which registers and cells each writes (R21 to R24, R45) and which
flags (R26). -/

namespace Sys2Proof.Machine

open Sys2Proof.Say

/-! ### The state an instruction answers -/

/-- The address the resolver gives, where it gives one. -/
def addressOf (m : Mode) (s : State) : Word :=
  match ea m s with
  | .ok addr => addr
  | .error _ => 0

theorem addressOf_of_ok {m : Mode} {s : State} {addr : Word} (h : ea m s = .ok addr) : addressOf m s = addr := by
  simp [addressOf, h]

/-- Where a branch leaves PC within its handler (R140). -/
def branchTarget (taken : Bool) (s : State) : Word :=
  if taken then s.pc + (sext16 (s.readByte s.pc) + 1) else s.pc

theorem branch_relative (cond : Bool) (s : State) : branch .relative cond s = .next (s.setPc (branchTarget cond s)) := by
  cases cond <;> rfl

/-- The state an instruction answers, by its mnemonic (R120 to R175). -/
def effect (i : Instr) (s : State) : State :=
  let addr := addressOf i.mode s
  let m := s.readByte addr
  match (descriptor i).mnemonic with
  | .adc => ((s.addFlags s.a m).setA (s.a + m)).setZN (s.a + m)
  | .and => (s.setA (s.a &&& m)).setZN (s.a &&& m)
  | .asl => if i = .aslAccumulator then aslA s else ((s.setFlag .c m.msb).writeByte addr (shl1 m)).setZN (shl1 m)
  | .bcc => s.setPc (branchTarget (!s.flag .c) s)
  | .bcs => s.setPc (branchTarget (s.flag .c) s)
  | .beq => s.setPc (branchTarget (s.flag .z) s)
  | .bne => s.setPc (branchTarget (!s.flag .z) s)
  | .bpl => s.setPc (branchTarget (!s.flag .n) s)
  | .brk => s.setRs .stopped
  | .clc => s.setFlag .c false
  | .cmp => s.cmpFlags s.a m
  | .cpx => s.cpxFlags s.x m
  | .dex => (s.setX (s.x - 1)).setZN (s.x - 1)
  | .inx => (s.setX (s.x + 1)).setZN (s.x + 1)
  | .jsr => (pushReturn s).setPc ((pushReturn s).readWord s.pc)
  | .lda => (s.setA m).setZN m
  | .ldx => (s.setX m).setZN m
  | .ldy => (s.setY m).setZN m
  | .rts => (popReturn s).2.setPc ((popReturn s).1 + 1)
  | .sbc => ((s.subFlags s.a m).setA (s.a - m)).setZN (s.a - m)
  | .sec => s.setFlag .c true
  | .sta => s.writeByte addr s.a
  | .stx => s.writeByte addr s.x
  | .sty => s.writeByte addr s.y
  | .tax => (s.setX s.a).setZN s.a
  | .txa => (s.setA s.x).setZN s.x

/-- Every instruction answers the next state `effect`: no row has a mode that the resolver refuses to its rule (R202). -/
theorem exec_eq_effect (i : Instr) (s : State) : exec i s = .next (effect i s) := by
  cases i
  case bcc => exact branch_relative (!s.flag .c) s
  case bcs => exact branch_relative (s.flag .c) s
  case beq => exact branch_relative (s.flag .z) s
  case bne => exact branch_relative (!s.flag .z) s
  case bpl => exact branch_relative (!s.flag .n) s
  all_goals rfl

theorem eq_effect_of_exec {i : Instr} {s t : State} (h : exec i s = .next t) : t = effect i s := by
  rw [exec_eq_effect] at h
  exact (Host.Outcome.next.inj h).symm

/-! ### What an instruction does not write -/

theorem effect_a {i : Instr} (s : State) (h : ¬ (OneOf i [.adc, .sbc, .and, .lda, .txa] ∨ i = .aslAccumulator)) :
    (effect i s).a = s.a := by
  unfold effect
  split <;> simp_all [OneOf, pushReturn, popReturn]

theorem effect_x {i : Instr} (s : State) (h : ¬ OneOf i [.dex, .inx, .ldx, .tax]) : (effect i s).x = s.x := by
  unfold effect
  split <;> simp_all [OneOf, aslA, pushReturn, popReturn, apply_ite State.x]

theorem effect_y {i : Instr} (s : State) (h : ¬ OneOf i [.ldy]) : (effect i s).y = s.y := by
  unfold effect
  split <;> simp_all [OneOf, aslA, pushReturn, popReturn, apply_ite State.y]

theorem effect_sp {i : Instr} (s : State) (h : ¬ OneOf i [.jsr, .rts]) : (effect i s).sp = s.sp := by
  unfold effect
  split <;> simp_all [OneOf, aslA, apply_ite State.sp]

theorem effect_pc {i : Instr} (s : State) (h : ¬ OneOf i [.bcc, .bcs, .beq, .bne, .bpl, .jsr, .rts]) :
    (effect i s).pc = s.pc := by
  unfold effect
  split <;> simp_all [OneOf, aslA, apply_ite State.pc]

theorem effect_rs {i : Instr} (s : State) (h : ¬ OneOf i [.brk]) : (effect i s).rs = s.rs := by
  unfold effect
  split <;> simp_all [OneOf, aslA, pushReturn, popReturn, apply_ite State.rs]

theorem effect_rs_of_brk {i : Instr} (s : State) (h : OneOf i [.brk]) : (effect i s).rs = .stopped := by
  have hbrk : (descriptor i).mnemonic = .brk := by simpa [OneOf] using h
  simp [effect, hbrk]

/-- BRK stops the run and every other instruction leaves the run state (R30, R162). -/
theorem effect_rs_cases (i : Instr) (s : State) : (effect i s).rs = s.rs ∨ (effect i s).rs = .stopped := by
  by_cases hbrk : OneOf i [.brk]
  · exact .inr (effect_rs_of_brk s hbrk)
  · exact .inl (effect_rs s hbrk)

theorem effect_mem {i : Instr} (s : State)
    (h : ¬ (OneOf i [.sta, .stx, .sty, .jsr] ∨ (OneOf i [.asl] ∧ i ≠ .aslAccumulator))) : (effect i s).mem = s.mem := by
  unfold effect
  split <;> simp_all [OneOf, aslA, popReturn]

/-! ### The flag unit's remaining rules -/

/-- What `subFlags` leaves in each flag (R102). -/
theorem State.flag_subFlags (s : State) (a m : Byte) (f : Flag) :
    (s.subFlags a m).flag f = match f with
      | .c => decide (a.toNat < m.toNat)
      | .v => signedOverflow (a.toInt - m.toInt)
      | .z => s.flag .z
      | .n => s.flag .n := by
  cases f <;> simp [State.subFlags, State.flag_setFlag_other]

/-- What `cpxFlags` leaves in each flag: N is bit 7 of the register itself (R125). -/
theorem State.flag_cpxFlags (s : State) (x m : Byte) (f : Flag) :
    (s.cpxFlags x m).flag f = match f with
      | .c => decide (x.toNat ≥ m.toNat)
      | .v => s.flag .v
      | .z => decide (x = m)
      | .n => x.msb := by
  cases f <;> simp [State.cpxFlags, State.flag_setFlag_other]

/-- What ASL A leaves in each flag (R123). -/
theorem flag_aslA (s : State) (f : Flag) :
    (aslA s).flag f = match f with
      | .c => s.a.msb
      | .v => s.flag .v
      | .z => decide (shl1 s.a = 0)
      | .n => (shl1 s.a).msb := by
  cases f <;> simp [aslA, State.flag_setZN, State.flag_setFlag_other]

@[simp] theorem State.flag_setRs (s : State) (r : RunState) (f : Flag) : (s.setRs r).flag f = s.flag f := rfl
@[simp] theorem flag_pushReturn (s : State) (f : Flag) : (pushReturn s).flag f = s.flag f := rfl
@[simp] theorem flag_popReturn (s : State) (f : Flag) : (popReturn s).2.flag f = s.flag f := rfl

@[simp] theorem State.reservedBits_subFlags (s : State) (a m : Byte) :
    (s.subFlags a m).reservedBits = s.reservedBits := by
  simp [State.subFlags]

@[simp] theorem State.reservedBits_cpxFlags (s : State) (x m : Byte) :
    (s.cpxFlags x m).reservedBits = s.reservedBits := by
  simp [State.cpxFlags]

@[simp] theorem reservedBits_aslA (s : State) : (aslA s).reservedBits = s.reservedBits := by
  simp [aslA]

@[simp] theorem State.reservedBits_setPc (s : State) (v : Word) : (s.setPc v).reservedBits = s.reservedBits := rfl
@[simp] theorem State.reservedBits_setX (s : State) (v : Byte) : (s.setX v).reservedBits = s.reservedBits := rfl
@[simp] theorem State.reservedBits_setY (s : State) (v : Byte) : (s.setY v).reservedBits = s.reservedBits := rfl
@[simp] theorem State.reservedBits_setRs (s : State) (r : RunState) : (s.setRs r).reservedBits = s.reservedBits := rfl
@[simp] theorem State.reservedBits_writeByte (s : State) (addr : Word) (v : Byte) :
    (s.writeByte addr v).reservedBits = s.reservedBits := rfl
@[simp] theorem reservedBits_pushReturn (s : State) : (pushReturn s).reservedBits = s.reservedBits := rfl
@[simp] theorem reservedBits_popReturn (s : State) : (popReturn s).2.reservedBits = s.reservedBits := rfl

/-! ### The flag table (R26) -/

/-- One row of the flag table: the value written to C, to V, and the byte that Z and N are set from. -/
def flagRow (c v : Option Bool) (zn : Option Byte) : Flag → Option Bool
  | .c => c
  | .v => v
  | .z => zn.map (fun r => decide (r = 0))
  | .n => zn.map (fun r => r.msb)

/-- The value an instruction writes to each flag, or none where it keeps the flag. -/
def flagWritten (i : Instr) (s : State) : Flag → Option Bool :=
  let m := s.readByte (addressOf i.mode s)
  match (descriptor i).mnemonic with
  | .adc =>
    flagRow (some (decide (s.a.toNat + m.toNat > 255))) (some (signedOverflow (s.a.toInt + m.toInt))) (some (s.a + m))
  | .sbc =>
    flagRow (some (decide (s.a.toNat < m.toNat))) (some (signedOverflow (s.a.toInt - m.toInt))) (some (s.a - m))
  | .cmp => flagRow (some (decide (s.a.toNat ≥ m.toNat))) none (some (s.a - m))
  | .cpx => fun
    | .c => some (decide (s.x.toNat ≥ m.toNat))
    | .v => none
    | .z => some (decide (s.x = m))
    | .n => some s.x.msb
  | .asl =>
    let v := if i = .aslAccumulator then s.a else m
    flagRow (some v.msb) none (some (shl1 v))
  | .clc => flagRow (some false) none none
  | .sec => flagRow (some true) none none
  | .and => flagRow none none (some (s.a &&& m))
  | .dex => flagRow none none (some (s.x - 1))
  | .inx => flagRow none none (some (s.x + 1))
  | .lda => flagRow none none (some m)
  | .ldx => flagRow none none (some m)
  | .ldy => flagRow none none (some m)
  | .tax => flagRow none none (some s.a)
  | .txa => flagRow none none (some s.x)
  | _ => fun _ => none

/-- An instruction leaves in each flag the value the table gives, and keeps the flag where it gives none. -/
theorem effect_flag (i : Instr) (s : State) (f : Flag) :
    (effect i s).flag f = (flagWritten i s f).getD (s.flag f) := by
  cases hm : (descriptor i).mnemonic
  case asl =>
    by_cases hacc : i = .aslAccumulator
    · subst hacc
      cases f <;> exact flag_aslA s _
    · cases f <;> simp [effect, flagWritten, flagRow, hm, hacc, State.flag_setZN, State.flag_setFlag_other]
  all_goals
    cases f <;> simp [effect, flagWritten, flagRow, hm, State.flag_setZN, State.flag_addFlags, State.flag_subFlags,
      State.flag_cmpFlags, State.flag_cpxFlags, State.flag_setFlag_other]

/-- No instruction writes bits 5 to 2 of P (R27). -/
theorem effect_reservedBits (i : Instr) (s : State) : (effect i s).reservedBits = s.reservedBits := by
  unfold effect
  split <;> simp [apply_ite State.reservedBits]

/-- The mnemonics that write each flag (R26). -/
def Flag.writers : Flag → List Mnemonic
  | .c => [.adc, .sbc, .asl, .cmp, .cpx, .clc, .sec]
  | .v => [.adc, .sbc]
  | .z => [.adc, .sbc, .and, .asl, .cmp, .cpx, .dex, .inx, .lda, .ldx, .ldy, .tax, .txa]
  | .n => [.adc, .sbc, .and, .asl, .cmp, .cpx, .dex, .inx, .lda, .ldx, .ldy, .tax, .txa]

theorem flagWritten_isSome_iff (i : Instr) (s : State) (f : Flag) :
    (flagWritten i s f).isSome ↔ OneOf i f.writers := by
  cases hm : (descriptor i).mnemonic <;> cases f <;> simp [flagWritten, flagRow, OneOf, Flag.writers, hm]

theorem effect_flag_of_not_writer {i : Instr} {f : Flag} (s : State) (h : ¬ OneOf i f.writers) :
    (effect i s).flag f = s.flag f := by
  rw [← flagWritten_isSome_iff i s, Option.not_isSome_iff_eq_none] at h
  rw [effect_flag, h, Option.getD_none]

end Sys2Proof.Machine

/-! The invariant (R200 to R205, R29): what each thing a step can do leaves of the canonical memory, of a legal run state and of
the parameters, and with it every reachable state. -/

namespace Sys2Proof.Machine

open Sys2Proof.Say

/-! ### What keeps a good state good -/

/-- Between two states: the parameters stay, and a canonical memory and a legal run state stay so. -/
structure KeepsGood (s t : State) : Prop where
  params : t.params = s.params
  wf : Memory.wf s.mem = true → Memory.wf t.mem = true
  legal : s.rs.legal = true → t.rs.legal = true

theorem State.inv_iff (s : State) : s.inv = true ↔ Memory.wf s.mem = true ∧ s.rs.legal = true := by
  simp [State.inv]

theorem KeepsGood.inv {s t : State} (h : KeepsGood s t) (hs : s.inv = true) : t.inv = true := by
  obtain ⟨hwf, hlegal⟩ := s.inv_iff.mp hs
  exact t.inv_iff.mpr ⟨h.wf hwf, h.legal hlegal⟩

theorem KeepsGood.trans {s t u : State} (h : KeepsGood s t) (h' : KeepsGood t u) : KeepsGood s u :=
  ⟨h'.params.trans h.params, h'.wf ∘ h.wf, h'.legal ∘ h.legal⟩

/-! ### The host -/

theorem performAction_keepsGood (act : HostAction) (s : State) : KeepsGood s (performAction act s) := by
  obtain ⟨hrs, hparams, -, -, hwf⟩ := performAction_frame act s
  exact ⟨hparams, hwf, fun h => hrs ▸ h⟩

theorem setCalls_keepsGood (s : State) (calls : List HostCall) : KeepsGood s (s.setCalls calls) :=
  ⟨rfl, id, id⟩

theorem performCall_keepsGood (call : HostCall) (s : State) : KeepsGood s (performCall call s) := by
  cases call with
  | act act => exact performAction_keepsGood act s
  | runWithCallback hook => exact ⟨rfl, id, fun _ => rfl⟩
  | loadAndRun bytes =>
    simp only [performCall]
    split
    · obtain ⟨hparams, hwf, -⟩ := performAction_keepsGood (.load bytes) s
      exact ⟨hparams, hwf, fun _ => rfl⟩
    · exact ⟨rfl, id, id⟩

theorem idle_keepsGood (s : State) : KeepsGood s (idle s) := by
  unfold idle hostCall
  split
  · exact ⟨rfl, id, id⟩
  · next call rest _ =>
    split
    · exact (setCalls_keepsGood s rest).trans (performCall_keepsGood call (s.setCalls rest))
    · exact ⟨rfl, id, id⟩
    · exact ⟨rfl, id, id⟩

theorem hostWindow_keepsGood (s : State) : KeepsGood s (hostWindow s) := by
  obtain ⟨hrs, hparams, -, hwf⟩ := hostWindow_frame s
  refine ⟨hparams, hwf, fun h => ?_⟩
  rcases hrs with hrs | hrs
  · exact hrs ▸ h
  · rw [hrs]; rfl

/-! ### The instruction -/

@[simp] theorem finish_rs (pcBefore : Word) (length : Nat) (s : State) : (finish pcBefore length s).rs = s.rs := by
  rw [finish_frame]
@[simp] theorem finish_mem (pcBefore : Word) (length : Nat) (s : State) : (finish pcBefore length s).mem = s.mem := by
  rw [finish_frame]
@[simp] theorem finish_params (pcBefore : Word) (length : Nat) (s : State) :
    (finish pcBefore length s).params = s.params := by
  rw [finish_frame]

theorem effect_rs_legal (i : Instr) (s : State) (h : s.rs.legal = true) : (effect i s).rs.legal = true := by
  rcases effect_rs_cases i s with hrs | hrs
  · rwa [hrs]
  · rw [hrs]; rfl

/-- Settles O38: every instruction answers a state whose run state is as before or Stopped. -/
theorem instructionsNeverFault : Obligations.InstructionsNeverFault := by
  intro i s hs
  refine ⟨effect i s, exec_eq_effect i s, ?_⟩
  rcases effect_rs_cases i s with hrs | hrs
  · rwa [hrs]
  · rw [hrs]; rfl

/-! ### The step and the run -/

/-- A step always answers a next state, and a good state leads to a good one. -/
theorem step_answers_keepsGood (s : State) : ∃ t, step s = .next t ∧ KeepsGood s t := by
  have hwindow := hostWindow_keepsGood s
  rcases step_cases s with ⟨-, hstep⟩ | ⟨-, -, hstep⟩ | ⟨-, -, hnone, hstep⟩ | ⟨-, -, i, u, -, hexec, hkept, hstep⟩
  · exact ⟨_, hstep, idle_keepsGood s⟩
  · exact ⟨_, hstep, hwindow⟩
  · refine ⟨_, hstep, hwindow.params, hwindow.wf, fun _ => ?_⟩
    simp only [State.raise_rs, RunState.legal, hnone, Option.isNone_none]
  · refine ⟨_, hstep, hwindow.trans ⟨?_, ?_, ?_⟩⟩
    · rw [finish_params]; exact hkept.params
    · rw [finish_mem]; exact hkept.wf
    · rw [finish_rs, eq_effect_of_exec hexec]; exact effect_rs_legal i (Fetched s)

/-- Settles O58: whatever a step does keeps a good state good. -/
theorem invariantKeptByEveryStep : Obligations.InvariantKeptByEveryStep := by
  intro s t hs hstep
  obtain ⟨u, hu, hgood⟩ := step_answers_keepsGood s
  obtain rfl : u = t := Host.Outcome.next.inj (hu.symm.trans hstep)
  exact hgood.inv hs

/-- A run of one step more, on any machine. -/
theorem run_succ_of_step {M : Host.Core} {s t : M.State} (n : Nat) (h : M.step s = .next t) :
    M.run (n + 1) s = M.run n t := by
  simp only [Host.Core.run, h]

/-- The step lemma carried through a run of any length. -/
theorem run_answers_keepsGood (n : Nat) (s : State) : ∃ t : State, Host.Core.run core n s = .next t ∧ KeepsGood s t := by
  induction n generalizing s with
  | zero => exact ⟨s, rfl, rfl, id, id⟩
  | succ n ih =>
    obtain ⟨t, hstep, hst⟩ := step_answers_keepsGood s
    obtain ⟨u, hrun, htu⟩ := ih t
    exact ⟨u, (run_succ_of_step (M := core) n hstep).trans hrun, hst.trans htu⟩

/-- Settles O59: the first memories are empty and the first run states Stopped. -/
theorem invariantHoldsAtReset : Obligations.InvariantHoldsAtReset :=
  ⟨fun _ => ⟨rfl, rfl⟩, rfl⟩

/-- Settles O60: the first state of every life is good, and so is every state after it. -/
theorem everyLifeOfAnInstanceKeepsTheInvariant : Obligations.EveryLifeOfAnInstanceKeepsTheInvariant := by
  intro c calls n
  obtain ⟨t, hrun, hgood⟩ := run_answers_keepsGood n { State.new c with calls := calls }
  exact ⟨t, hrun, hgood.inv rfl, hgood.params⟩

end Sys2Proof.Machine

/-! What no instruction reads or writes (R21 to R27, R45, R119): the writers of each register and flag, and the state's parts that
have no effect on an instruction. -/

namespace Sys2Proof.Machine

open Sys2Proof.Say

/-! ### Writers -/

/-- Settles O39: the writers are those of the flag table, and no flag write touches bits 5 to 2. -/
theorem flagsAreWrittenOnlyByTheirWriters : Obligations.FlagsAreWrittenOnlyByTheirWriters := by
  intro i s t h
  obtain rfl := eq_effect_of_exec h
  have hwriter (f : Flag) (hne : (effect i s).flag f ≠ s.flag f) : OneOf i f.writers :=
    by_contra fun hnot => hne (effect_flag_of_not_writer s hnot)
  refine ⟨hwriter .c, hwriter .v, ?_, effect_reservedBits i s⟩
  rintro (hz | hn)
  · exact hwriter .z hz
  · exact hwriter .n hn

/-- Settles O40: an instruction that is not one of a part's writers leaves that part as it was. -/
theorem registersAreWrittenOnlyByTheirWriters : Obligations.RegistersAreWrittenOnlyByTheirWriters := by
  intro i s t h
  obtain rfl := eq_effect_of_exec h
  refine ⟨?a, ?x, ?y, ?sp, ?pc, ?rs, ?mem⟩
  case a => exact fun hne => by_contra fun hnot => hne (effect_a s hnot)
  case x => exact fun hne => by_contra fun hnot => hne (effect_x s hnot)
  case y => exact fun hne => by_contra fun hnot => hne (effect_y s hnot)
  case sp => exact fun hne => by_contra fun hnot => hne (effect_sp s hnot)
  case pc => exact fun hne => by_contra fun hnot => hne (effect_pc s hnot)
  case rs => exact fun hne => by_contra fun hnot => hne (effect_rs s hnot)
  case mem =>
    rintro ⟨addr, hne⟩
    exact by_contra fun hnot => hne (congrArg (Memory.read · addr.toNat) (effect_mem s hnot))

/-! ### The status register as an input -/

@[simp] theorem addressOf_setP (m : Mode) (s : State) (q : Byte) : addressOf m (s.setP q) = addressOf m s := by
  cases m <;> rfl

/-- The flag table gives the same values whatever P holds. -/
theorem flagWritten_setP (i : Instr) (s : State) (q : Byte) : flagWritten i (s.setP q) = flagWritten i s := by
  simp only [flagWritten, addressOf_setP, State.readByte_setP, State.setP_a, State.setP_x]

/-- The mnemonics that read a flag (R141 to R145). -/
def flagReaders : List Mnemonic := [.bcc, .bcs, .beq, .bne, .bpl]

/-- An instruction whose flags, if it reads any, are the same in both states leaves everything but P alike. -/
theorem effect_setP {i : Instr} {s : State} {q : Byte} (h : OneOf i flagReaders → ∀ f, (s.setP q).flag f = s.flag f) :
    effect i (s.setP q) = (effect i s).setP (effect i (s.setP q)).p := by
  cases hm : (descriptor i).mnemonic
  case bcc | bcs | beq | bne | bpl =>
    simp only [effect, hm, h (by simp [OneOf, flagReaders, hm])]
    rfl
  case asl =>
    simp only [effect, hm, addressOf_setP]
    split <;> rfl
  all_goals
    simp only [effect, hm, addressOf_setP]
    rfl

/-- Two status bytes agree on a bit if they agree on bits 5 to 2 and on the flag that stands at the bit, if one does. -/
theorem getLsbD_p_congr {s t : State} {k : Nat} (hr : s.reservedBits = t.reservedBits)
    (hf : ∀ f : Flag, f.bit = k → s.flag f = t.flag f) : s.p.getLsbD k = t.p.getLsbD k := by
  by_cases hk : 2 ≤ k ∧ k < 6
  · have hbit := congrArg (·.getLsbD (k - 2)) hr
    simpa [State.reservedBits, BitVec.getLsbD_extractLsb', show k - 2 < 4 by omega, show 2 + (k - 2) = k by omega]
      using hbit
  · have hcases : k = Flag.c.bit ∨ k = Flag.z.bit ∨ k = Flag.v.bit ∨ k = Flag.n.bit ∨ 8 ≤ k := by
      simp only [Flag.bit]; omega
    rcases hcases with rfl | rfl | rfl | rfl | hge
    · exact hf .c rfl
    · exact hf .z rfl
    · exact hf .v rfl
    · exact hf .n rfl
    · rw [BitVec.getLsbD_of_ge _ _ hge, BitVec.getLsbD_of_ge _ _ hge]

/-- Settles O41: the flags written do not depend on P, and the flags kept are the same four in both states. -/
theorem reservedStatusBitsHaveNoEffect : Obligations.ReservedStatusBitsHaveNoEffect := by
  intro i s q hsame
  have hflag (f : Flag) : (s.setP q).flag f = s.flag f := by
    obtain ⟨hn, hv, hz, hc⟩ := hsame
    cases f
    · exact hc
    · exact hz
    · exact hv
    · exact hn
  have hafter (f : Flag) : (effect i (s.setP q)).flag f = (effect i s).flag f := by
    rw [effect_flag, effect_flag, flagWritten_setP, hflag]
  exact ⟨effect i s, effect i (s.setP q), exec_eq_effect i s, exec_eq_effect i _, effect_setP fun _ => hflag,
    ⟨hafter .n, hafter .v, hafter .z, hafter .c⟩, effect_reservedBits i (s.setP q)⟩

/-- Settles O42: these instructions read no flag and write Z, V and N from other inputs or keep them; all but AND write C. -/
theorem carryIsNoInputToArithmetic : Obligations.CarryIsNoInputToArithmetic := by
  intro i s q hi hq
  have hflag (f : Flag) (hf : f ≠ .c) : (s.setP q).flag f = s.flag f := hq f.bit (by cases f <;> simp_all [Flag.bit])
  have hreserved : (s.setP q).reservedBits = s.reservedBits := by
    refine BitVec.eq_of_getLsbD_eq fun k hk => ?_
    simp only [State.reservedBits, BitVec.getLsbD_extractLsb', State.setP_p, hq (2 + k) (by omega)]
  have hreserved' : (effect i (s.setP q)).reservedBits = (effect i s).reservedBits := by
    rw [effect_reservedBits, effect_reservedBits, hreserved]
  have hafter (f : Flag) (hf : f ≠ .c ∨ OneOf i Flag.c.writers) : (effect i (s.setP q)).flag f = (effect i s).flag f := by
    rw [effect_flag, effect_flag, flagWritten_setP]
    by_cases hc : f = .c
    · subst hc
      obtain ⟨b, hb⟩ := Option.isSome_iff_exists.mp ((flagWritten_isSome_iff i s .c).mpr (hf.resolve_left (by simp)))
      rw [hb, Option.getD_some, Option.getD_some]
    · rw [hflag f hc]
  refine ⟨effect i s, effect i (s.setP q), exec_eq_effect i s, exec_eq_effect i _, effect_setP ?noReader, ?others, ?written,
    ?kept⟩
  case noReader =>
    have hdisjoint : ∀ m ∈ [Mnemonic.adc, .sbc, .and, .asl, .cmp, .cpx], m ∉ flagReaders := by decide
    exact fun hreads => absurd hreads (hdisjoint _ hi)
  case others =>
    intro k hk
    exact getLsbD_p_congr hreserved' fun f hf => hafter f (.inl (by rintro rfl; exact hk hf.symm))
  case written =>
    intro hand
    have hcover : ∀ m ∈ [Mnemonic.adc, .sbc, .and, .asl, .cmp, .cpx], m ∉ [Mnemonic.and] → m ∈ Flag.c.writers := by decide
    have hwrites : OneOf i Flag.c.writers := hcover _ hi hand
    exact BitVec.eq_of_getLsbD_eq fun k _ => getLsbD_p_congr hreserved' fun f _ => hafter f (.inr hwrites)
  case kept =>
    intro hand
    have hdisjoint : ∀ m ∈ [Mnemonic.and], m ∉ Flag.c.writers := by decide
    have hkeeps : ¬ OneOf i Flag.c.writers := hdisjoint _ hand
    exact ⟨effect_flag_of_not_writer s hkeeps, effect_flag_of_not_writer (s.setP q) hkeeps⟩

/-! ### The accumulator as an input -/

@[simp] theorem addressOf_setA (m : Mode) (s : State) (v : Byte) : addressOf m (s.setA v) = addressOf m s := by
  cases m <;> rfl

/-- An instruction that does not read A leaves everything but A alike (R21). -/
theorem effect_setA {i : Instr} {s : State} {v : Byte} (hreads : ¬ OneOf i [.adc, .sbc, .and, .cmp, .sta, .tax])
    (hacc : i ≠ .aslAccumulator) : effect i (s.setA v) = (effect i s).setA (effect i (s.setA v)).a := by
  cases hm : (descriptor i).mnemonic
  case adc | sbc | and | cmp | sta | tax => exact absurd (by simp [OneOf, hm]) hreads
  all_goals
    simp only [effect, hm, addressOf_setA, if_neg hacc]
    rfl

/-- Settles O43: LDA and TXA write A from other inputs, and every other one of these keeps A. -/
theorem accumulatorIsReadOnlyByItsReaders : Obligations.AccumulatorIsReadOnlyByItsReaders := by
  intro i s v hreads hacc
  refine ⟨effect i s, effect i (s.setA v), exec_eq_effect i s, exec_eq_effect i _, effect_setA hreads hacc, ?written, ?kept⟩
  case written =>
    intro h
    have hm : (descriptor i).mnemonic = .lda ∨ (descriptor i).mnemonic = .txa := by simpa [OneOf] using h
    rcases hm with hm | hm <;> simp [effect, hm]
  case kept =>
    intro h
    have hkeeps : ¬ (OneOf i [.adc, .sbc, .and, .lda, .txa] ∨ i = .aslAccumulator) := by
      simp_all [OneOf]
    exact ⟨effect_a s hkeeps, effect_a (s.setA v) hkeeps⟩

end Sys2Proof.Machine

/-! Memory and the resolver (20_memory.md, 40_execution_cycle.md section 2): one cell and one word, the canonical form, and the
addresses that stay in their pages. -/

namespace Sys2Proof.Machine

/-! ### Memory -/

/-- Settles O4: the address of the high byte is the next one, modulo 65536. -/
theorem wordReadIsLittleEndian : Obligations.WordReadIsLittleEndian := by
  intro s addr hiAddr h
  obtain rfl : hiAddr = addr + 1 := BitVec.eq_of_toNat_eq (h.trans (BitVec.toNat_add addr 1).symm)
  exact s.readWord_toNat addr

/-- Settles O5: the laws of one cell. -/
theorem byteWriteChangesOneCell : Obligations.ByteWriteChangesOneCell := by
  intro s addr v hwf
  exact ⟨State.readByte_writeByte_same addr v hwf, fun _ hb => s.readByte_writeByte_other v hb, rfl,
    State.wf_writeByte addr v hwf⟩

theorem Memory.wfFrom_cons (lo k : Nat) (v : Byte) (rest : Memory) :
    Memory.wfFrom lo ((k, v) :: rest) = true ↔ lo ≤ k ∧ k < 65536 ∧ v ≠ 0 ∧ Memory.wfFrom (k + 1) rest = true := by
  simp [Memory.wfFrom, and_assoc]

/-- The first listed address is the lowest one that does not read as 0x00. -/
theorem Memory.head_le_of_read_ne_zero {lo k addr : Nat} {v : Byte} {rest : Memory}
    (hwf : Memory.wfFrom lo ((k, v) :: rest) = true) (hread : Memory.read ((k, v) :: rest) addr ≠ 0) : k ≤ addr := by
  obtain ⟨-, hk, hv, hrest⟩ := (Memory.wfFrom_cons lo k v rest).mp hwf
  by_contra hlt
  exact hread (Memory.read_below ((Memory.wfFrom_cons k k v rest).mpr ⟨le_rfl, hk, hv, hrest⟩) (Nat.lt_of_not_le hlt))

theorem Memory.read_head (k : Nat) (v : Byte) (rest : Memory) : Memory.read ((k, v) :: rest) k = v :=
  (Memory.read_cons k v rest k).trans (if_pos rfl)

/-- A canonical memory that reads as 0x00 everywhere lists nothing. -/
theorem Memory.eq_nil_of_read_eq_zero {lo : Nat} {m : Memory} (hwf : Memory.wfFrom lo m = true)
    (hread : ∀ addr < 65536, Memory.read m addr = 0) : m = [] := by
  cases m with
  | nil => rfl
  | cons kv rest =>
    obtain ⟨k, v⟩ := kv
    obtain ⟨-, hk, hv, -⟩ := (Memory.wfFrom_cons lo k v rest).mp hwf
    exact absurd ((Memory.read_head k v rest).symm.trans (hread k hk)) hv

/-- The list is determined by what it reads as: the two heads stand at the same lowest address. -/
theorem Memory.eq_of_read_eq {m m' : Memory} {lo : Nat} (hm : Memory.wfFrom lo m = true) (hm' : Memory.wfFrom lo m' = true)
    (hread : ∀ addr < 65536, Memory.read m addr = Memory.read m' addr) : m = m' := by
  induction m generalizing m' lo with
  | nil => exact (Memory.eq_nil_of_read_eq_zero hm' fun addr h => (hread addr h).symm).symm
  | cons kv rest ih =>
    obtain ⟨k, v⟩ := kv
    obtain ⟨-, hk, hv, hrest⟩ := (Memory.wfFrom_cons lo k v rest).mp hm
    cases m' with
    | nil => exact Memory.eq_nil_of_read_eq_zero hm hread
    | cons kv' rest' =>
      obtain ⟨k', v'⟩ := kv'
      obtain ⟨-, hk', hv', hrest'⟩ := (Memory.wfFrom_cons lo k' v' rest').mp hm'
      have hle : k ≤ k' := Memory.head_le_of_read_ne_zero hm (by rw [hread k' hk', Memory.read_head]; exact hv')
      have hge : k' ≤ k := Memory.head_le_of_read_ne_zero hm' (by rw [← hread k hk, Memory.read_head]; exact hv)
      obtain rfl : k = k' := Nat.le_antisymm hle hge
      obtain rfl : v = v' := by simpa only [Memory.read_head] using hread k hk
      refine congrArg _ (ih hrest hrest' fun addr haddr => ?_)
      by_cases hlt : addr < k + 1
      · rw [Memory.read_below hrest hlt, Memory.read_below hrest' hlt]
      · have htail := hread addr haddr
        rwa [Memory.read_cons, Memory.read_cons, if_neg (by omega), if_neg (by omega)] at htail

/-- Settles O6: every address below 65536 is a word, and the list is determined by what it reads as. -/
theorem canonicalMemoriesWithEqualReadsAreEqual : Obligations.CanonicalMemoriesWithEqualReadsAreEqual := by
  intro m m' hm hm' hread
  refine Memory.eq_of_read_eq hm hm' fun addr haddr => ?_
  have hword := hread (BitVec.ofNat 16 addr)
  rwa [BitVec.toNat_ofNat, Nat.mod_eq_of_lt haddr] at hword

/-! ### The resolver -/

theorem zext16_succ_eq_ofNat (b : Byte) : zext16 b + 1 = BitVec.ofNat 16 (b.toNat + 1) :=
  BitVec.eq_of_toNat_eq (by simp [zext16_toNat])

/-- Settles O8: the two cells of the pointer are a low and a high byte, and the parameter says where the high one stands. -/
theorem pointerReadFollowsTheParameter : Obligations.PointerReadFollowsTheParameter := by
  intro s z
  refine ⟨?pointer, congrArg Except.ok (add16_zext16_eq_ofNat _ s.y)⟩
  rw [readPtr, concat16_toNat, zext16_eq_ofNat]
  cases s.params.zpPtrWrap
  case linear16 =>
    dsimp only
    rw [← zext16_eq_ofNat, zext16_succ_eq_ofNat]
    omega
  case zeroPage8 =>
    have hnext : zext16 (z + 1) = BitVec.ofNat 16 ((z.toNat + 1) % 256) := zext16_add8_eq_ofNat z 1
    dsimp only
    rw [hnext]
    omega

/-- Settles O9: the resolver's ten other arms answer an address. -/
theorem resolverRefusesTwoModes : Obligations.ResolverRefusesTwoModes := by
  intro m s rest
  refine ⟨⟨?onlyTwo, fun ⟨hn, ha⟩ => ea_ok s ha hn⟩, ?raises⟩
  case onlyTwo =>
    rintro ⟨addr, h⟩
    constructor <;> rintro rfl <;> cases h
  case raises => rintro (rfl | rfl) <;> exact ⟨rfl, rfl⟩

/-- Settles O10: a zero-page address is a widened byte, and the stack page begins at 0x0100. -/
theorem indexedZeroPageAndStackStayInTheirPages : Obligations.IndexedZeroPageAndStackStayInTheirPages := by
  intro s addr
  have hpage (b : Byte) : (zext16 b).toNat < 0x100 := by
    rw [zext16_toNat]
    exact b.isLt
  have hsp := s.sp.isLt
  rw [s.stackAddr_toNat]
  refine ⟨?_, by omega, by omega⟩
  rintro (h | h | h) <;> cases h <;> exact hpage _

end Sys2Proof.Machine

/-! The rest of arithmetic, shift and compare (41_arith_logic.md), and a store followed by a load (45_load_store.md): each form is
its mnemonic's effect at the address its mode resolves to, with the flags the flag table gives. -/

namespace Sys2Proof.Machine

open Sys2Proof.Say

/-! ### The forms of each rule -/

/-- The listed forms stand in the opcode table with that mode and byte, in modes that the resolver serves (R66, R90). -/
theorem row_of_form :
    ∀ form ∈ Forms.sbc ++ Forms.cpx ++ Forms.aslMem ++ Forms.lda ++ (Forms.sta ++ Forms.stx ++ Forms.sty),
      lookup form.2.2 = some form.1 ∧ form.1.mode = form.2.1 ∧ form.2.1 ≠ .accumulator ∧ form.2.1 ≠ .noneAddressing := by
  decide

/-- A listed form is the instruction of its opcode byte, and its mode resolves to the address its effect uses. -/
theorem lookup_and_address_of_form (i : Instr) (mode : Mode) (op : Byte) (s : State)
    (h : (i, mode, op) ∈ Forms.sbc ++ Forms.cpx ++ Forms.aslMem ++ Forms.lda ++ (Forms.sta ++ Forms.stx ++ Forms.sty)) :
    lookup op = some i ∧ ea mode s = .ok (addressOf i.mode s) := by
  obtain ⟨hlookup, hmode, ha, hn⟩ := row_of_form _ h
  obtain ⟨addr, hea⟩ := ea_ok s ha hn
  exact ⟨hlookup, by rw [hmode, addressOf_of_ok hea, hea]⟩

theorem mnemonic_of_mem_sbc : ∀ form ∈ Forms.sbc, (descriptor form.1).mnemonic = .sbc := by decide
theorem mnemonic_of_mem_cpx : ∀ form ∈ Forms.cpx, (descriptor form.1).mnemonic = .cpx := by decide
theorem mnemonic_of_mem_lda : ∀ form ∈ Forms.lda, (descriptor form.1).mnemonic = .lda := by decide
theorem mnemonic_of_mem_sta : ∀ form ∈ Forms.sta, (descriptor form.1).mnemonic = .sta := by decide
theorem mnemonic_of_mem_aslMem :
    ∀ form ∈ Forms.aslMem, (descriptor form.1).mnemonic = .asl ∧ form.1 ≠ .aslAccumulator := by decide

/-! ### The status byte -/

/-- The status byte an instruction leaves, from its row of the flag table (R26). -/
theorem effect_status (i : Instr) (s : State) :
    Status s.p (effect i s).p ((flagWritten i s .n).getD (s.flag .n)) ((flagWritten i s .v).getD (s.flag .v))
      ((flagWritten i s .z).getD (s.flag .z)) ((flagWritten i s .c).getD (s.flag .c)) :=
  ⟨effect_flag i s .n, effect_flag i s .v, effect_flag i s .z, effect_flag i s .c, effect_reservedBits i s⟩

theorem byte_msb_eq (b : Byte) : b.msb = b.getLsbD 7 := BitVec.msb_eq_getLsbD_last b

/-! ### The obligations -/

/-- Settles O12: the byte difference of A and the operand, with the borrow in C. -/
theorem sbcSubtractsWithoutBorrowIn : Obligations.SbcSubtractsWithoutBorrowIn := by
  intro i mode op hform s
  obtain ⟨hlookup, hea⟩ := lookup_and_address_of_form i mode op s (by simp [hform])
  have hm := mnemonic_of_mem_sbc _ hform
  have hstatus := effect_status i s
  simp only [flagWritten, flagRow, hm, Option.map_some, Option.getD_some, signedOverflow, sub_eq_zero] at hstatus
  refine ⟨hlookup, _, _, (effect i s).p, s.a - s.readByte (addressOf i.mode s), hea, rfl, sub8_toNat _ _, ?_, hstatus⟩
  rw [exec_eq_effect]
  simp only [effect, hm]
  rfl

/-- Settles O14: the shifted byte is twice A modulo 256, and the bit shifted out is bit 7. -/
theorem aslAccumulatorShiftsLeft : Obligations.AslAccumulatorShiftsLeft := by
  intro s
  refine ⟨Laws.OpcodeLookup.aslAccumulator.1, (aslA s).p, shl1 s.a, shl1_toNat s.a, rfl, ?_⟩
  apply status_of_flags
  case hn => rw [flag_aslA, ← byte_msb_eq]
  case hv => rw [flag_aslA]; rfl
  case hz => simp only [flag_aslA, byte_eq_zero_iff]
  case hc => rw [flag_aslA, byte_msb_eq]
  case hr => simp

/-- Settles O15: the effect is one byte write at the address and a flag row. -/
theorem aslMemoryShiftsTheCellLeft : Obligations.AslMemoryShiftsTheCellLeft := by
  intro i mode op hform s hwf
  obtain ⟨hlookup, hea⟩ := lookup_and_address_of_form i mode op s (by simp [hform])
  obtain ⟨hm, hacc⟩ := mnemonic_of_mem_aslMem _ hform
  refine ⟨hlookup, ⟨_, hea⟩, fun addr haddr => ⟨effect i s, exec_eq_effect i s, ?_⟩⟩
  obtain rfl : addressOf i.mode s = addr := Except.ok.inj (hea.symm.trans haddr)
  have heffect : effect i s =
      (s.writeByte (addressOf i.mode s) (shl1 (s.readByte (addressOf i.mode s)))).setP (effect i s).p := by
    simp only [effect, hm, if_neg hacc]
    rfl
  have hcell : (effect i s).readByte (addressOf i.mode s) = shl1 (s.readByte (addressOf i.mode s)) := by
    rw [heffect]
    exact State.readByte_writeByte_same _ _ hwf
  have hstatus := effect_status i s
  simp only [flagWritten, flagRow, hm, if_neg hacc, Option.map_some, Option.getD_some, Option.getD_none, byte_eq_zero_iff,
    byte_msb_eq] at hstatus
  refine ⟨by rw [heffect]; rfl, by rw [hcell, shl1_toNat], fun b hb => ?_, by rw [hcell]; exact hstatus⟩
  rw [heffect]
  exact State.readByte_writeByte_other s _ hb

/-- Settles O17: only P changes, and N is bit 7 of X. -/
theorem cpxTakesNegativeFromTheRegister : Obligations.CpxTakesNegativeFromTheRegister := by
  intro i mode op hform s
  obtain ⟨hlookup, hea⟩ := lookup_and_address_of_form i mode op s (by simp [hform])
  have hm := mnemonic_of_mem_cpx _ hform
  have hstatus := effect_status i s
  simp only [flagWritten, hm, Option.getD_some, Option.getD_none, byte_msb_eq, ← BitVec.toNat_inj] at hstatus
  refine ⟨hlookup, _, _, (effect i s).p, hea, rfl, ?_, hstatus⟩
  rw [exec_eq_effect]
  simp only [effect, hm]
  rfl

/-- Settles O24: the load reads the cell the store wrote, in the memory the store left. -/
theorem storeThenLoadRoundTrip : Obligations.StoreThenLoadRoundTrip := by
  intro i j mode op op' hsta hlda s t r hwf hexec hmem hsame
  obtain ⟨-, hstore⟩ := lookup_and_address_of_form i mode op s (by simp [hsta])
  obtain ⟨-, hload⟩ := lookup_and_address_of_form j mode op' r (by simp [hlda])
  have haddr : addressOf j.mode r = addressOf i.mode s := Except.ok.inj (hload.symm.trans (hsame.trans hstore))
  have ht : t = s.writeByte (addressOf i.mode s) s.a := by
    rw [eq_effect_of_exec hexec]
    simp only [effect, mnemonic_of_mem_sta _ hsta]
  refine ⟨effect j r, exec_eq_effect j r, ?_⟩
  calc (effect j r).a = r.readByte (addressOf i.mode s) := by
        simp only [effect, mnemonic_of_mem_lda _ hlda, State.setZN_a, State.setA_a, haddr]
    _ = t.readByte (addressOf i.mode s) := by simp only [State.readByte, hmem]
    _ = s.a := by rw [ht]; exact State.readByte_writeByte_same _ _ hwf

end Sys2Proof.Machine

/-! Branches (42_branch.md). -/

namespace Sys2Proof.Machine

/-- The listed branches stand in the opcode table (R66). -/
theorem lookup_of_mem_branch : ∀ form ∈ Forms.branch, lookup form.2.1 = some form.1 := by decide

/-- Each branch writes its target to PC, taken when the bit it reads has the value it tests (R141 to R145). -/
theorem exec_of_mem_branch : ∀ form ∈ Forms.branch, ∀ s, exec form.1 s =
    .next (s.setPc (branchTarget (s.p.getLsbD form.2.2.1 == form.2.2.2) s)) := by
  have hclear (b : Bool) : (!b) = (b == false) := by cases b <;> rfl
  have hset (b : Bool) : b = (b == true) := by cases b <;> rfl
  simp only [Forms.branch, List.forall_mem_cons]
  refine ⟨fun s => ?bcc, fun s => ?bcs, fun s => ?beq, fun s => ?bne, fun s => ?bpl, nofun⟩
  case bcc => exact (hclear (s.flag .c)) ▸ branch_relative (!s.flag .c) s
  case bcs => exact (hset (s.flag .c)) ▸ branch_relative (s.flag .c) s
  case beq => exact (hset (s.flag .z)) ▸ branch_relative (s.flag .z) s
  case bne => exact (hclear (s.flag .z)) ▸ branch_relative (!s.flag .z) s
  case bpl => exact (hclear (s.flag .n)) ▸ branch_relative (!s.flag .n) s

theorem exec_branch_taken {i : Instr} {op : Byte} {bit : Nat} {val : Bool} (hform : (i, op, bit, val) ∈ Forms.branch)
    {s : State} (h : s.p.getLsbD bit = val) :
    exec i s = .next (s.setPc (s.pc + (sext16 (s.readByte s.pc) + 1))) := by
  have hexec := exec_of_mem_branch _ hform s
  rwa [show (s.p.getLsbD bit == val) = true from beq_iff_eq.mpr h] at hexec

theorem exec_branch_not_taken {i : Instr} {op : Byte} {bit : Nat} {val : Bool} (hform : (i, op, bit, val) ∈ Forms.branch)
    {s : State} (h : s.p.getLsbD bit ≠ val) : exec i s = .next s := by
  have hexec := exec_of_mem_branch _ hform s
  rwa [show (s.p.getLsbD bit == val) = false from beq_eq_false_iff_ne.mpr h] at hexec

/-- A word plus a sign-extended byte, as an integer modulo 65536 (R8, D12). -/
theorem add_sext16_toNat (w : Word) (d : Byte) :
    ((w + sext16 d).toNat : Int) = ((w.toNat : Int) + d.toInt) % 65536 := by
  have hd : (sext16 d).toInt = d.toInt := sext16_toInt d
  rw [BitVec.toInt_eq_toNat_cond] at hd
  have := w.isLt
  have := (sext16 d).isLt
  rw [BitVec.toNat_add]
  split at hd <;> omega

/-- Settles O25: the target is PC + 1 + d, and a branch that is not taken answers the state it ran in. -/
theorem branchesWriteThePcOnlyWhenTaken : Obligations.BranchesWriteThePcOnlyWhenTaken := by
  intro i op bit val hform s
  refine ⟨lookup_of_mem_branch _ hform, fun h => ⟨_, exec_branch_taken hform h, ?_⟩, exec_branch_not_taken hform⟩
  rw [show s.pc + (sext16 (s.readByte s.pc) + 1) = (s.pc + 1) + sext16 (s.readByte s.pc) by ring, add_sext16_toNat,
    BitVec.toNat_add]
  simp

end Sys2Proof.Machine

/-! The stack, subroutine call and return (40_execution_cycle.md section 4, 44_subroutine_halt.md). -/

namespace Sys2Proof.Machine

/-! ### One stack cell -/

/-- The cell of the stack page that a stack pointer designates (R23). -/
theorem stackCell_toNat (sp : Byte) : (stackBase + zext16 sp).toNat = 0x100 + sp.toNat :=
  State.stackAddr_toNat ((State.new Params.tested).setSp sp)

theorem eq_stackCell {addr : Word} {sp : Byte} (h : addr.toNat = 0x100 + sp.toNat) : addr = stackBase + zext16 sp :=
  BitVec.eq_of_toNat_eq (h.trans (stackCell_toNat sp).symm)

theorem stackCell_ne {sp sp' : Byte} (h : sp ≠ sp') : stackBase + zext16 sp ≠ stackBase + zext16 sp' := by
  intro heq
  have hnat := congrArg BitVec.toNat heq
  rw [stackCell_toNat, stackCell_toNat] at hnat
  exact h (BitVec.eq_of_toNat_eq (Nat.add_left_cancel hnat))

theorem readByte_push_same {s : State} (v : Byte) (h : Memory.wf s.mem = true) :
    (s.push v).readByte (stackBase + zext16 s.sp) = v :=
  State.readByte_writeByte_same s.stackAddr v h

theorem readByte_push_other (s : State) (v : Byte) {addr : Word} (h : addr ≠ stackBase + zext16 s.sp) :
    (s.push v).readByte addr = s.readByte addr :=
  State.readByte_writeByte_other s v h

/-- Settles O30: the cell of SP is written and SP then decremented. -/
theorem pushWritesThenDecrements : Obligations.PushWritesThenDecrements := by
  intro s v hwf
  have hcell : BitVec.ofNat 16 (0x100 + s.sp.toNat) = stackBase + zext16 s.sp := by
    rw [← stackCell_toNat, BitVec.ofNat_toNat, BitVec.setWidth_eq]
  refine ⟨rfl, hcell ▸ readByte_push_same v hwf, fun b hb => readByte_push_other s v fun heq => hb ?_⟩
  rw [heq, stackCell_toNat]

/-- Settles O31: SP is incremented and its cell then read. -/
theorem popIncrementsThenReads : Obligations.PopIncrementsThenReads := by
  intro s cell hcell
  have hsp : (s.sp + 1).toNat = (s.sp.toNat + 1) % 256 := BitVec.toNat_add s.sp 1
  rw [← hsp] at hcell ⊢
  exact ⟨by rw [eq_stackCell hcell, State.pop_byte], rfl, rfl⟩

/-- What is pushed is popped, and the stack pointer is back where it was. -/
theorem pop_push {s : State} (v : Byte) (h : Memory.wf s.mem = true) : (s.push v).pop = (v, (s.push v).setSp s.sp) := by
  have hsp : (s.push v).sp + 1 = s.sp := sub_add_cancel s.sp 1
  refine Prod.ext ?_ (congrArg (s.push v).setSp hsp)
  rw [State.pop_byte, hsp]
  exact readByte_push_same v h

/-- Settles O32: the pop gives back the pair of the byte and the state with the old SP. -/
theorem popReturnsThePushedByte : Obligations.PopReturnsThePushedByte := by
  intro s v hwf
  rw [pop_push v hwf]
  exact ⟨rfl, rfl⟩

/-! ### Call and return -/

theorem sp_sub_two (sp : Byte) : sp - 1 - 1 = sp - 2 := by bv_omega

theorem sp_sub_one_ne (sp : Byte) : sp ≠ sp - 1 := by bv_omega

/-- The pushes of a call write two cells and take SP down by two. -/
theorem pushReturn_frame (s : State) : pushReturn s = { s with sp := s.sp - 2, mem := (pushReturn s).mem } := by
  rw [← sp_sub_two]
  rfl

/-- What memory holds after two pushes. -/
theorem readByte_push_push {s : State} (v w : Byte) (hwf : Memory.wf s.mem = true) :
    ((s.push v).push w).readByte (stackBase + zext16 s.sp) = v ∧
    ((s.push v).push w).readByte (stackBase + zext16 (s.sp - 1)) = w ∧
    ∀ b : Word, b ≠ stackBase + zext16 s.sp → b ≠ stackBase + zext16 (s.sp - 1) →
      ((s.push v).push w).readByte b = s.readByte b := by
  have hother {b : Word} (h : b ≠ stackBase + zext16 (s.sp - 1)) :
      ((s.push v).push w).readByte b = (s.push v).readByte b := readByte_push_other (s.push v) w h
  refine ⟨?_, readByte_push_same (s := s.push v) w (State.wf_push v hwf), fun b hv hw => ?_⟩
  · rw [hother (stackCell_ne (sp_sub_one_ne s.sp)), readByte_push_same v hwf]
  · rw [hother hw, readByte_push_other s v hv]

/-- What memory holds after the pushes of a call: the return address, high byte first, and every other cell as it was. -/
theorem pushReturn_cells {s : State} (hwf : Memory.wf s.mem = true) :
    (pushReturn s).readByte (stackBase + zext16 s.sp) = hi8 (s.pc + 1) ∧
    (pushReturn s).readByte (stackBase + zext16 (s.sp - 1)) = lo8 (s.pc + 1) ∧
    ∀ b : Word, b ≠ stackBase + zext16 s.sp → b ≠ stackBase + zext16 (s.sp - 1) →
      (pushReturn s).readByte b = s.readByte b :=
  readByte_push_push _ _ hwf

/-- The pops of a return give back the address the call pushed, and SP. -/
theorem popReturn_pushReturn {s : State} (hwf : Memory.wf s.mem = true) :
    popReturn (pushReturn s) = (s.pc + 1, (pushReturn s).setSp s.sp) := by
  have hlo := pop_push (s := s.push (hi8 (s.pc + 1))) (lo8 (s.pc + 1)) (State.wf_push _ hwf)
  have hhi : (pushReturn s).readByte (stackBase + zext16 s.sp) = hi8 (s.pc + 1) := (pushReturn_cells hwf).1
  have hsp : s.sp - 1 + 1 = s.sp := sub_add_cancel s.sp 1
  unfold popReturn
  rw [show (pushReturn s).pop = (lo8 (s.pc + 1), (pushReturn s).setSp (s.sp - 1)) from hlo]
  refine Prod.ext ?_ (congrArg (pushReturn s).setSp hsp)
  dsimp only
  rw [State.pop_byte, State.setSp_sp, hsp, State.readByte_setSp, hhi, concat16_hi8_lo8]

theorem popReturn_setPc (s : State) (v : Word) :
    popReturn (s.setPc v) = ((popReturn s).1, (popReturn s).2.setPc v) := rfl

theorem exec_jsr_eq (s : State) : exec .jsr s = .next ((pushReturn s).setPc ((pushReturn s).readWord s.pc)) :=
  exec_eq_effect .jsr s

/-- Settles O33: the two cells of the return address, and the jump to the word read after the pushes. -/
theorem jsrPushesTheReturnAndJumps : Obligations.JsrPushesTheReturnAndJumps := by
  refine ⟨Laws.OpcodeLookup.jsr.1, fun s hiAt loAt hwf hhi hlo => ⟨_, exec_jsr_eq s, ?_, ?_⟩⟩
  · rw [pushReturn_frame]
    rfl
  have hsp : (s.sp - 1).toNat = (s.sp.toNat + 255) % 256 := sub8_one_toNat s.sp
  obtain rfl := eq_stackCell hhi
  obtain rfl := eq_stackCell (hlo.trans (by rw [hsp]))
  obtain ⟨hcellHi, hcellLo, hother⟩ := pushReturn_cells hwf
  simp only [State.readByte_setPc, hcellHi, hcellLo, hi8_toNat, lo8_toNat, State.setPc_pc]
  exact ⟨trivial, trivial, hother, (pushReturn s).readWord_toNat s.pc⟩

/-- Settles O34: the two cells above SP hold the address, low byte first. -/
theorem rtsPopsTheReturnAddress : Obligations.RtsPopsTheReturnAddress := by
  refine ⟨Laws.OpcodeLookup.rts.1, fun s loAt hiAt hlo hhi => ⟨(popReturn s).1 + 1, ?_, ?_⟩⟩
  · have hsp : s.sp + 1 + 1 = s.sp + 2 := by rw [add_assoc]; rfl
    rw [← hsp]
    exact exec_rts s
  · have hone : (s.sp + 1).toNat = (s.sp.toNat + 1) % 256 := BitVec.toNat_add s.sp 1
    have htwo : (s.sp + 1 + 1).toNat = (s.sp.toNat + 2) % 256 := by bv_omega
    obtain rfl := eq_stackCell (hlo.trans (by rw [hone]))
    obtain rfl := eq_stackCell (hhi.trans (by rw [htwo]))
    have haddr : (popReturn s).1 = concat16 (s.readByte (stackBase + zext16 (s.sp + 1 + 1)))
      (s.readByte (stackBase + zext16 (s.sp + 1))) := rfl
    rw [BitVec.toNat_add, haddr, concat16_toNat]
    simp [Nat.mul_comm, Nat.add_comm]

/-- Settles O35: the return address is that of the call's last byte. -/
theorem returnGoesPastTheCall : Obligations.ReturnGoesPastTheCall := by
  intro s hwf
  refine ⟨_, _, exec_jsr_eq s, exec_rts _, ?_⟩
  have hpc : s.pc + 1 + 1 = s.pc + 2 := by rw [add_assoc]; rfl
  rw [popReturn_setPc, popReturn_pushReturn hwf, pushReturn_frame]
  exact congrArg (fun pc => { s with pc := pc, mem := (pushReturn s).mem }) hpc

end Sys2Proof.Machine

/-! The dispatch loop (40_execution_cycle.md section 1): a step is the window, the fetch, the effect of the instruction and the
advance of PC, so the PC after a step is that of the effect, advanced where the effect left it alone. -/

namespace Sys2Proof.Machine

open Sys2Proof.Say

/-! ### The step of a running machine -/

/-- The advance at the end of a step, as its two conditions (R80, R85). -/
theorem finish_eq_ite (pcBefore : Word) (length : Nat) (u : State) :
    finish pcBefore length u =
      if u.rs = .running ∧ u.pc = pcBefore then u.setPc (u.pc + BitVec.ofNat 16 (length - 1)) else u := by
  by_cases hrs : u.rs = .running
  · simp only [finish_running hrs, advancePc, hrs, true_and]
  · rw [finish_not_running hrs, if_neg fun h => hrs h.1]

theorem finish_of_pc_eq {pcBefore : Word} {u : State} (length : Nat) (hrs : u.rs = .running) (hpc : u.pc = pcBefore) :
    finish pcBefore length u = u.setPc (pcBefore + BitVec.ofNat 16 (length - 1)) := by
  rw [finish_eq_ite, if_pos ⟨hrs, hpc⟩, hpc]

theorem finish_of_pc_ne {pcBefore : Word} {u : State} (length : Nat) (hpc : u.pc ≠ pcBefore) :
    finish pcBefore length u = u := by
  rw [finish_eq_ite, if_neg fun h => hpc h.2]

/-- The PC after an instruction that writes PC: what it wrote, unless that is the PC before the handler, which is
advanced. -/
theorem finish_setPc {s : State} (pcBefore v : Word) (length : Nat) (hrs : s.rs = .running) :
    finish pcBefore length (s.setPc v) =
      s.setPc (if v = pcBefore then pcBefore + BitVec.ofNat 16 (length - 1) else v) := by
  by_cases hv : v = pcBefore
  · rw [finish_of_pc_eq (u := s.setPc v) length hrs hv, if_pos hv]
    rfl
  · rw [finish_of_pc_ne (u := s.setPc v) length hv, if_neg hv]

/-- The advance of a one-byte instruction is by nothing. -/
theorem finish_length_one (pcBefore : Word) (u : State) : finish pcBefore 1 u = u := by
  have hzero : u.pc + BitVec.ofNat 16 (1 - 1) = u.pc := BitVec.add_zero u.pc
  rw [finish_eq_ite, hzero]
  exact ite_self u

theorem step_of_lookup {s u : State} {i : Instr} (hgoes : Goes s) (hlookup : lookup (OpcodeOf s) = some i)
    (hexec : exec i (Fetched s) = .next u) : step s = .next (finish (Fetched s).pc i.length u) :=
  (step_of_window_running hgoes.1 hgoes.2).trans (runInstruction_of_some hlookup hexec)

theorem step_of_lookup_none {s : State} (hgoes : Goes s) (hlookup : lookup (OpcodeOf s) = none) :
    step s = .next (raise (.unsupportedOpcode (OpcodeOf s)) (Fetched s)) :=
  (step_of_window_running hgoes.1 hgoes.2).trans (runInstruction_of_none hlookup)

theorem fetched_rs {s : State} (hgoes : Goes s) : (Fetched s).rs = .running := hgoes.2

/-- With no window left the host window does nothing (R81). -/
theorem hostWindow_of_hook_nil {s : State} (h : s.hook = []) : hostWindow s = s := by
  simp only [hostWindow, h]

/-- With no further window the opcode byte of the next step is the byte at PC. -/
theorem opcodeOf_of_hook_nil {u : State} (h : u.hook = []) : OpcodeOf u = (fetch u).1 := by
  rw [OpcodeOf, hostWindow_of_hook_nil h]
  rfl

/-- Settles O44: what the decoder finds at PC is the row the step looks up. -/
theorem stepRunsTheDecodedInstruction : Obligations.StepRunsTheDecodedInstruction := by
  rintro s t c rest hgoes rfl hdecode -
  obtain ⟨op, tail, hbytes, hlookup, -⟩ := decode_eq_ok hdecode
  obtain ⟨rfl, -⟩ := List.cons.inj hbytes
  refine ⟨effect c.instr (Fetched s), exec_eq_effect c.instr _, ?_⟩
  rw [step_of_lookup hgoes hlookup (exec_eq_effect c.instr _), finish_eq_ite]
  rfl

/-- Settles O45: the four ways a step of a running machine can go. -/
theorem stepIsTheDispatchLoop : Obligations.StepIsTheDispatchLoop := by
  intro s hrs
  refine ⟨fun hstop => ?window, step_of_lookup_none, fun i hgoes hlookup => ?instruction⟩
  case window => exact step_of_window_stopped hrs ((hostWindow_frame s).1.resolve_left fun h => hstop (h.trans hrs))
  case instruction =>
    refine ⟨effect i (Fetched s), exec_eq_effect i _, ?_⟩
    rw [step_of_lookup hgoes hlookup (exec_eq_effect i _)]
    refine ⟨fun hended => ?_, fun _ hpc => ?_, fun hrun hpc => ?_⟩
    · rw [finish_not_running hended]
    · rw [finish_of_pc_ne _ hpc]
    · rw [finish_of_pc_eq _ hrun hpc, hpc]
      rfl

/-- Settles O46: the listed bytes are those the table lacks, and the step on one raises the error after the fetch. -/
theorem unsupportedByteFaultsTheRun : Obligations.UnsupportedByteFaultsTheRun := by
  refine ⟨mem_unsupported_iff, fun _ => rfl, ?_⟩
  rintro s t hgoes rfl hlisted
  exact step_of_lookup_none hgoes ((mem_unsupported_iff _).mp hlisted)

/-- Settles O37: BRK changes the run state only, so its step ends at once. -/
theorem brkStopsTheRun : Obligations.BrkStopsTheRun := by
  refine ⟨Laws.OpcodeLookup.brk.1, exec_brk, ?_⟩
  rintro s t hgoes rfl hop
  have hlookup : lookup (OpcodeOf s) = some .brk := hop ▸ Laws.OpcodeLookup.brk.1
  rw [step_of_lookup hgoes hlookup (exec_brk _), finish_not_running (by simp)]
  rfl

theorem eq_brk_of_oneOf {i : Instr} (h : OneOf i [.brk]) : i = .brk := by
  cases i <;> simp [OneOf, descriptor] at h ⊢

/-- Settles O49: of the four things a step can do, only these three leave the run state other than Running. -/
theorem runEndsInThreeWays : Obligations.RunEndsInThreeWays := by
  intro s t hrs hstep hended
  rcases step_cases s with ⟨hnot, -⟩ | ⟨-, hstopped, hnext⟩ | ⟨-, hgo, hnone, hnext⟩ | ⟨-, hgo, i, u, hlookup, hexec, -, hnext⟩
  · exact absurd hrs hnot
  all_goals obtain rfl := Host.Outcome.next.inj (hstep.symm.trans hnext)
  · exact .inl ⟨rfl, hstopped⟩
  · exact .inr (.inr ⟨hgo, hnone, rfl⟩)
  · have hu := eq_effect_of_exec hexec
    rw [finish_rs, hu] at hended ⊢
    have hbrk : OneOf i [.brk] := by_contra fun hnot => hended ((effect_rs _ hnot).trans hgo)
    refine .inr (.inl ⟨hgo, ?_, effect_rs_of_brk _ hbrk⟩)
    rw [OpcodeOf, ← code_of_lookup hlookup, eq_brk_of_oneOf hbrk]
    rfl

/-! ### Straight-line instructions -/

theorem length_pos (i : Instr) : 1 ≤ i.length := by
  rw [(opcodeLookup_statement i).2]
  cases i.mode.format <;> decide

/-- Past the opcode byte and then past the operand bytes is past the instruction. -/
theorem add_one_add_length (a : Word) (i : Instr) :
    a + 1 + BitVec.ofNat 16 (i.length - 1) = a + BitVec.ofNat 16 i.length := by
  rw [add_assoc]
  refine congrArg (a + ·) ((BitVec.ofNat_add 1 (i.length - 1)).symm.trans ?_)
  rw [Nat.add_sub_cancel' (length_pos i)]

/-- An instruction that writes neither PC nor the run state leaves PC past itself, whatever else it does (R88). -/
theorem step_straight_line {s : State} {i : Instr} (hgoes : Goes s) (hlookup : lookup (OpcodeOf s) = some i)
    (h : ¬ OneOf i [.bcc, .bcs, .beq, .bne, .bpl, .jsr, .rts, .brk]) :
    step s = .next ((effect i (Fetched s)).setPc ((hostWindow s).pc + BitVec.ofNat 16 i.length)) := by
  have hpc : (effect i (Fetched s)).pc = (Fetched s).pc := effect_pc _ fun hmem => h (by simp_all [OneOf])
  have hrs : (effect i (Fetched s)).rs = .running := (effect_rs _ fun hmem => h (by simp_all [OneOf])).trans hgoes.2
  rw [step_of_lookup hgoes hlookup (exec_eq_effect i _), finish_of_pc_eq _ hrs hpc, ← add_one_add_length]
  rfl

/-- Settles O47: the sum of the straight-line step as a number. -/
theorem straightLineStepAdvancesByTheLength : Obligations.StraightLineStepAdvancesByTheLength := by
  rintro s t i hgoes rfl hlookup h
  refine ⟨_, step_straight_line hgoes hlookup h, ?_⟩
  rw [State.setPc_pc, BitVec.toNat_add, BitVec.toNat_ofNat, Nat.add_mod_mod]
  rfl

/-! ### Branches -/

theorem length_of_mem_branch : ∀ form ∈ Forms.branch, form.1.length = 2 := by decide

/-- A taken branch leaves PC alone exactly when its displacement is -1. -/
theorem sext16_add_one_eq_zero_iff (d : Byte) : sext16 d + 1 = 0 ↔ d = 0xFF := by
  rw [add_eq_zero_iff_eq_neg, show -(1 : Word) = sext16 0xFF from rfl, ← BitVec.toInt_inj, sext16_toInt, sext16_toInt,
    BitVec.toInt_inj]

theorem branchTarget_eq_pc_iff (taken : Bool) (s : State) :
    branchTarget taken s = s.pc ↔ taken = false ∨ s.readByte s.pc = 0xFF := by
  cases taken
  · simp [branchTarget]
  · rw [branchTarget, if_pos rfl, add_eq_left, sext16_add_one_eq_zero_iff]
    simp

/-- Settles O26: PC is advanced past the displacement where the handler left it, which a branch taken with d = 0xFF does
too. -/
theorem branchStepLeavesThePcAtTheTarget : Obligations.BranchStepLeavesThePcAtTheTarget := by
  rintro i op bit val hform s t hgoes rfl hop
  have hlookup : lookup (OpcodeOf s) = some i := hop ▸ lookup_of_mem_branch _ hform
  have hstep := step_of_lookup hgoes hlookup (exec_of_mem_branch _ hform (Fetched s))
  rw [finish_setPc _ _ _ (fetched_rs hgoes), show i.length = 2 from length_of_mem_branch _ hform] at hstep
  have hnext : (Fetched s).pc + 1 = (hostWindow s).pc + 2 := add_assoc _ _ _
  refine ⟨_, hstep, fun h => ?advanced, fun htaken hd => ?target⟩
  case advanced =>
    rw [if_pos ((branchTarget_eq_pc_iff _ _).mpr (h.imp beq_eq_false_iff_ne.mpr id))]
    exact hnext
  case target =>
    have htrue : ((Fetched s).p.getLsbD bit == val) = true := beq_iff_eq.mpr htaken
    have hmove : branchTarget true (Fetched s) ≠ (Fetched s).pc :=
      fun h => ((branchTarget_eq_pc_iff _ _).mp h).elim nofun hd
    rw [htrue, if_neg hmove, branchTarget, if_pos rfl, add_comm _ (1 : Word), ← add_assoc, hnext, add_sext16_toNat,
      BitVec.toNat_add]
    have hread : (Fetched s).readByte (Fetched s).pc = (hostWindow s).readByte ((hostWindow s).pc + 1) := rfl
    rw [hread]
    simp

/-! ### Call and return -/

theorem step_jsr {s : State} (hgoes : Goes s) (hop : OpcodeOf s = 0x20) {target : Word}
    (htarget : target = (pushReturn (Fetched s)).readWord (Fetched s).pc) :
    step s = .next ((pushReturn (Fetched s)).setPc
      (if target = (Fetched s).pc then (Fetched s).pc + 2 else target)) := by
  have hlookup : lookup (OpcodeOf s) = some .jsr := by rw [hop]; exact Laws.OpcodeLookup.jsr.1
  rw [step_of_lookup hgoes hlookup (exec_jsr_eq _), finish_setPc (s := pushReturn (Fetched s)) _ _ _ (fetched_rs hgoes),
    htarget]
  rfl

/-- Settles O36: the handler's PC, advanced by two after a call to its own operand bytes; a return is one byte long. -/
theorem callAndReturnStepsLeaveThePc : Obligations.CallAndReturnStepsLeaveThePc := by
  rintro s t hgoes rfl
  refine ⟨fun hop => ⟨_, step_jsr hgoes hop rfl, _, rfl, fun hne => if_neg hne, fun heq => ?_⟩, fun hop => ?_⟩
  · exact (if_pos heq).trans (congrArg (· + 2) heq.symm)
  · have hlookup : lookup (OpcodeOf s) = some .rts := by rw [hop]; exact Laws.OpcodeLookup.rts.1
    refine ⟨_, step_of_lookup hgoes hlookup (exec_rts _), ?_⟩
    have hsp : (Fetched s).sp + 1 + 1 = (hostWindow s).sp + 2 := add_assoc _ _ _
    rw [show Instr.rts.length = 1 from rfl, finish_length_one, State.setPc_pc, ← hsp]
    rfl

/-! ### Fetch sees every store -/

theorem not_pc_writer_of_store_form : ∀ form ∈ Forms.sta ++ Forms.stx ++ Forms.sty ++ Forms.aslMem,
    (descriptor form.1).mnemonic ∉ [.bcc, .bcs, .beq, .bne, .bpl, .jsr, .rts, .brk] ∧ form.1 ≠ .aslAccumulator := by
  decide

/-- Settles O48: after a straight-line store the next fetch reads the cell written, and after a call a cell its pushes
wrote. -/
theorem storeIntoTheNextInstructionIsFetched : Obligations.StoreIntoTheNextInstructionIsFetched := by
  rintro s t hgoes rfl hwf
  have hwf' : Memory.wf (Fetched s).mem = true := (hostWindow_keepsGood s).wf hwf
  refine ⟨fun i mode op hform hop hea => ?store, fun hop => ?call⟩
  case store =>
    obtain ⟨hlookup, haddr⟩ := lookup_and_address_of_form i mode op (Fetched s)
      (by simp only [List.mem_append] at hform ⊢; tauto)
    obtain ⟨hstraight, hacc⟩ := not_pc_writer_of_store_form _ hform
    have haddr : addressOf i.mode (Fetched s) = (hostWindow s).pc + BitVec.ofNat 16 i.length :=
      Except.ok.inj (haddr.symm.trans hea)
    have hcell (v : Byte) := State.readByte_writeByte_same ((hostWindow s).pc + BitVec.ofNat 16 i.length) v hwf'
    refine ⟨_, step_straight_line hgoes (hop ▸ hlookup) hstraight, rfl, fun h => ?sta, fun h => ?stx, fun h => ?sty,
      fun h => ?asl, opcodeOf_of_hook_nil⟩
    all_goals
      simp only [OneOf, List.mem_singleton] at h
      simp only [fetch, State.readByte_setPc, State.setPc_pc, effect, h, haddr, if_neg hacc]
    case sta => exact hcell _
    case stx => exact hcell _
    case sty => exact hcell _
    case asl => exact (congrArg BitVec.toNat (hcell _)).trans (shl1_toNat _)
  case call =>
    obtain ⟨hhi, hlo, -⟩ := pushReturn_cells hwf'
    have hret : (Fetched s).pc + 1 = (hostWindow s).pc + 2 := add_assoc _ _ _
    have hsp : ((Fetched s).sp - 1).toNat = ((hostWindow s).sp.toNat + 255) % 256 := sub8_one_toNat (hostWindow s).sp
    rw [hret] at hhi hlo
    refine ⟨_, step_jsr hgoes hop rfl, fun hpc => ?_, fun hpc => ?_, opcodeOf_of_hook_nil⟩
    · rw [fetch, eq_stackCell (sp := (Fetched s).sp) hpc, State.readByte_setPc, hhi, hi8_toNat]
    · rw [fetch, eq_stackCell (sp := (Fetched s).sp - 1) (hpc.trans (by rw [hsp])), State.readByte_setPc, hlo, lo8_toNat]

end Sys2Proof.Machine

/-! The host interface (60_exceptions.md section 3, 70_reset_and_hazards.md): the window, reset, load, the start of a run, host
writes, and the terminal state. -/

namespace Sys2Proof.Machine

open Sys2Proof.Say

/-! ### The window -/

theorem hostWindow_of_hook_cons {s : State} {w : Window} {rest : List Window} (h : s.hook = w :: rest) :
    hostWindow s = openWindow w (s.setHook rest) := by
  simp only [hostWindow, h]

/-- Settles O50: the verdict decides whether the run goes on after the actions. -/
theorem hostWindowRunsBeforeTheFetch : Obligations.HostWindowRunsBeforeTheFetch := by
  intro s hrs
  refine ⟨fun acts rest hhook => ?halt, fun acts rest hhook => ?goesOn, fun hhook => ?none⟩
  case halt =>
    have hwindow := hostWindow_of_hook_cons hhook
    have hstopped : (hostWindow s).rs = .stopped := by rw [hwindow]; rfl
    rw [step_of_window_stopped hrs hstopped, hwindow]
    rfl
  case goesOn =>
    have hwindow := hostWindow_of_hook_cons hhook
    refine ⟨hwindow, hrs, ?_⟩
    rw [hwindow]
    exact (foldl_performAction_frame acts (s.setHook rest)).1.trans hrs
  case none =>
    have hwindow := hostWindow_of_hook_nil hhook
    exact ⟨hwindow, hrs, by rw [hwindow]; exact hrs⟩

/-- Settles O51: the window's write comes before the fetch, which reads the byte written. -/
theorem hostWriteInTheWindowIsFetched : Obligations.HostWriteInTheWindowIsFetched := by
  intro s v rest hrs hwf hhook
  have hwindow : hostWindow s = (s.setHook rest).writeByte s.pc v := hostWindow_of_hook_cons hhook
  have hgoes : Goes s := ⟨hrs, by rw [hwindow]; exact hrs⟩
  have hop : OpcodeOf s = v := by
    rw [OpcodeOf, hwindow]
    exact State.readByte_writeByte_same (s := s.setHook rest) s.pc v hwf
  refine ⟨hgoes, hop, fun hbrk => ?brk, fun hnone => ?unsupported⟩
  case brk =>
    refine ⟨_, brkStopsTheRun.2.2 s _ hgoes rfl (hop.trans hbrk), rfl, ?_, ?_⟩
    · rw [hwindow]; rfl
    · rw [hwindow]; rfl
  case unsupported =>
    refine ⟨_, step_of_lookup_none hgoes (hop.symm ▸ hnone), by rw [State.raise_rs, hop], ?_⟩
    rw [State.raise_pc, Fetched, hwindow]
    rfl

/-! ### The window's reach -/

/-- The host actions that copy the cells at `addrs` from `t`. -/
def copyCells (t : State) (addrs : List Word) : List HostAction := addrs.map fun addr => .memWrite addr (t.readByte addr)

/-- The host actions that copy the registers from `t`. -/
def copyRegisters (t : State) : List HostAction :=
  [.writeReg (.pc t.pc), .writeReg (.a t.a), .writeReg (.x t.x), .writeReg (.y t.y), .writeReg (.sp t.sp),
    .writeReg (.p t.p)]

/-- Copying cells changes memory only, and the cells copied, with those that were alike before, are alike after. -/
theorem foldl_copyCells (t : State) (addrs : List Word) {s : State} (hwf : Memory.wf s.mem = true) :
    ∃ m : Memory, (copyCells t addrs).foldl (fun u act => performAction act u) s = { s with mem := m } ∧
      Memory.wf m = true ∧
      ∀ b : Word, b ∈ addrs ∨ s.readByte b = t.readByte b → Memory.read m b.toNat = t.readByte b := by
  induction addrs generalizing s with
  | nil => exact ⟨s.mem, rfl, hwf, fun b hb => hb.resolve_left (by simp)⟩
  | cons addr rest ih =>
    obtain ⟨m, hfold, hm, hread⟩ := ih (State.wf_writeByte addr (t.readByte addr) hwf)
    refine ⟨m, hfold, hm, fun b hb => hread b ?_⟩
    by_cases hba : b = addr
    · exact .inr (hba ▸ State.readByte_writeByte_same _ _ hwf)
    · rw [State.readByte_writeByte_other s _ hba]
      exact hb.imp_left fun h => (List.mem_cons.mp h).resolve_left hba

theorem ofNat_toNat_word (b : Word) : BitVec.ofNat 16 b.toNat = b := by
  rw [BitVec.ofNat_toNat, BitVec.setWidth_eq]

/-- All 65536 addresses. -/
def allAddresses : List Word := (List.range 65536).map (BitVec.ofNat 16)

theorem mem_allAddresses (b : Word) : b ∈ allAddresses :=
  List.mem_map.mpr ⟨b.toNat, List.mem_range.mpr b.isLt, ofNat_toNat_word b⟩

/-- Settles O52: copy every cell, after which the memories are the same list, and then every register. -/
theorem hostWindowCanReachAnyStore : Obligations.HostWindowCanReachAnyStore := by
  intro s t hs ht hrs hhook hcalls hparams
  obtain ⟨m, hfold, hm, hread⟩ := foldl_copyCells t allAddresses hs
  have hmem : m = t.mem :=
    canonicalMemoriesWithEqualReadsAreEqual m t.mem hm ht fun addr => hread addr (.inl (mem_allAddresses addr))
  refine ⟨copyCells t allAddresses ++ copyRegisters t, ?_⟩
  rw [List.foldl_append, hfold, hmem]
  cases t
  cases hrs
  cases hhook
  cases hcalls
  cases hparams
  rfl

/-! ### Words -/

theorem word_succ_ne (addr : Word) : addr + 1 ≠ addr := by bv_omega

theorem readByte_writeWord_other (s : State) {addr b : Word} (w : Word) (hlo : b ≠ addr) (hhi : b ≠ addr + 1) :
    (s.writeWord addr w).readByte b = s.readByte b := by
  rw [State.writeWord, State.readByte_writeByte_other _ _ hhi, State.readByte_writeByte_other _ _ hlo]

/-- A word written reads back, at every address (R42). -/
theorem readWord_writeWord_same {s : State} (addr w : Word) (hwf : Memory.wf s.mem = true) :
    (s.writeWord addr w).readWord addr = w := by
  have hhi : (s.writeWord addr w).readByte (addr + 1) = hi8 w :=
    State.readByte_writeByte_same _ _ (State.wf_writeByte _ _ hwf)
  have hlo : (s.writeWord addr w).readByte addr = lo8 w := by
    rw [State.writeWord, State.readByte_writeByte_other _ _ (word_succ_ne addr).symm, State.readByte_writeByte_same _ _ hwf]
  rw [State.readWord, hhi, hlo, concat16_hi8_lo8]

/-- Settles O56: each register write is one field, and a word write is the two byte writes of its cells. -/
theorem hostRegisterAndWordWrites : Obligations.HostRegisterAndWordWrites := by
  refine ⟨fun s v => ⟨rfl, callReply_readReg .pc _⟩, fun s v => ?registers, fun s r => callReply_readReg r s,
    fun s addr w hwf => ⟨?readBack, fun b hlo hhi => ?others⟩⟩
  case registers =>
    exact ⟨rfl, callReply_readReg .a _, rfl, callReply_readReg .x _, rfl, callReply_readReg .y _,
      rfl, callReply_readReg .sp _, rfl, callReply_readReg .p _⟩
  case readBack => exact congrArg Reply.word (readWord_writeWord_same addr w hwf)
  case others => exact congrArg Reply.byte (readByte_writeWord_other s w hlo hhi)

/-! ### Reset and load -/

theorem readWord_new (c : Params) (addr : Word) : (State.new c).readWord addr = 0 := by
  have hread (b : Word) : (State.new c).readByte b = 0 := Memory.read_nil b.toNat
  rw [State.readWord, hread, hread]
  rfl

/-- Settles O53: the vector is read as a word, and in zeroed memory it is 0x0000. -/
theorem resetActionSetsTheRegisters : Obligations.ResetActionSetsTheRegisters := by
  refine ⟨fun s => ?action, fun c => ⟨?fresh, rfl, rfl, rfl⟩, Params.tested, rfl⟩
  case action =>
    have hvector : s.readWord resetVector =
        BitVec.ofNat 16 ((s.readByte 0xFFFC).toNat + 256 * (s.readByte 0xFFFD).toNat) := by
      rw [s.readWord_eq_ofNat, show resetVector + 1 = 0xFFFD by decide, resetVector]
    rw [← hvector]
    rfl
  case fresh =>
    rw [resetAction, readWord_new]
    rfl

theorem word_succ_toNat (addr : Word) : (addr + 1).toNat = (addr.toNat + 1) % 65536 := BitVec.toNat_add addr 1

/-- Bytes that fit leave every cell outside them as it was. -/
theorem readByte_writeBytes_outside (s : State) {addr : Word} {bytes : List Byte} {b : Word}
    (hfit : addr.toNat + bytes.length ≤ 65536) (hb : b.toNat < addr.toNat ∨ addr.toNat + bytes.length ≤ b.toNat) :
    (s.writeBytes addr bytes).readByte b = s.readByte b := by
  induction bytes generalizing s addr with
  | nil => rfl
  | cons v rest ih =>
    have hsucc := word_succ_toNat addr
    rw [List.length_cons] at hfit hb
    have hne : b ≠ addr := by
      rintro rfl
      omega
    rw [State.writeBytes, ih _ (by omega) (by omega), State.readByte_writeByte_other s v hne]

/-- Bytes that fit are read back one by one. -/
theorem readByte_writeBytes_inside {s : State} {addr : Word} {bytes : List Byte} {k : Nat} {v : Byte}
    (hwf : Memory.wf s.mem = true) (hfit : addr.toNat + bytes.length ≤ 65536) (hk : bytes[k]? = some v) :
    (s.writeBytes addr bytes).readByte (BitVec.ofNat 16 (addr.toNat + k)) = v := by
  induction bytes generalizing s addr k with
  | nil => simp at hk
  | cons w rest ih =>
    have hsucc := word_succ_toNat addr
    have haddr := addr.isLt
    rw [List.length_cons] at hfit
    cases k with
    | zero =>
      obtain rfl : w = v := by simpa using hk
      rw [State.writeBytes, Nat.add_zero, ofNat_toNat_word, readByte_writeBytes_outside _ (by omega) (by omega),
        State.readByte_writeByte_same addr w hwf]
    | succ k =>
      have hcell : BitVec.ofNat 16 (addr.toNat + (k + 1)) = BitVec.ofNat 16 ((addr + 1).toNat + k) := by
        apply BitVec.eq_of_toNat_eq
        rw [BitVec.toNat_ofNat, BitVec.toNat_ofNat]
        omega
      rw [State.writeBytes, hcell]
      exact ih (State.wf_writeByte addr w hwf) (by omega) (by simpa using hk)

theorem loadAction_of_fits {bytes : List Byte} {s : State} (h : loadFits bytes s = true) :
    loadAction bytes s = (s.writeBytes s.params.programOrigin bytes).writeWord resetVector s.params.programOrigin :=
  if_pos h

/-- A load changes memory only. -/
theorem loadAction_frame (bytes : List Byte) (s : State) :
    loadAction bytes s = { s with mem := (loadAction bytes s).mem } := by
  unfold loadAction
  split
  · rw [State.writeBytes_frame]
    rfl
  · rfl

/-- After a load the vector points at the program (R232). -/
theorem readWord_loadAction_vector {bytes : List Byte} {s : State} (hwf : Memory.wf s.mem = true)
    (hfits : loadFits bytes s = true) : (loadAction bytes s).readWord resetVector = s.params.programOrigin := by
  rw [loadAction_of_fits hfits]
  exact readWord_writeWord_same _ _ (State.wf_writeBytes _ _ hwf)

theorem readByte_loadAction_of_ne_vector {bytes : List Byte} {s : State} {b : Word} (hfits : loadFits bytes s = true)
    (hlo : b ≠ 0xFFFC) (hhi : b ≠ 0xFFFD) :
    (loadAction bytes s).readByte b = (s.writeBytes s.params.programOrigin bytes).readByte b := by
  rw [loadAction_of_fits hfits]
  exact readByte_writeWord_other _ _ hlo hhi

/-- Settles O54: the bytes are written in order and the vector after them, or nothing is. -/
theorem loadCopiesTheProgramAndSetsTheVector : Obligations.LoadCopiesTheProgramAndSetsTheVector := by
  rintro s bytes origin hwf rfl
  refine ⟨fun hlong => ?refused, fun hfit => ?loaded⟩
  case refused =>
    have hfits : ¬ loadFits bytes s = true := fun h => absurd (of_decide_eq_true h) (Nat.not_le_of_gt hlong)
    exact ⟨if_neg hfits, if_neg hfits⟩
  case loaded =>
    have hfits : loadFits bytes s = true := decide_eq_true hfit
    refine ⟨_, rfl, loadAction_frame bytes s, if_pos hfits, readWord_loadAction_vector hwf hfits, fun k v hk hlo hhi => ?_,
      fun b hb hlo hhi => ?_⟩
    · have hlt : k < bytes.length := (List.getElem?_eq_some_iff.mp hk).1
      have hcell : (BitVec.ofNat 16 (s.params.programOrigin.toNat + k)).toNat = s.params.programOrigin.toNat + k := by
        rw [BitVec.toNat_ofNat]
        omega
      have hne {w : Word} (h : s.params.programOrigin.toNat + k ≠ w.toNat) :
          BitVec.ofNat 16 (s.params.programOrigin.toNat + k) ≠ w := fun heq => h (heq ▸ hcell.symm)
      rw [readByte_loadAction_of_ne_vector hfits (hne hlo) (hne hhi)]
      exact readByte_writeBytes_inside hwf hfit hk
    · rw [readByte_loadAction_of_ne_vector hfits hlo hhi]
      exact readByte_writeBytes_outside s hfit hb

/-! ### The start of a run -/

theorem idle_of_calls_cons {s : State} {call : HostCall} {rest : List HostCall} (hrs : s.rs = .stopped)
    (h : s.calls = call :: rest) : idle s = performCall call (s.setCalls rest) := by
  simp only [idle, h, hostCall, State.setCalls_rs, hrs]

theorem writeBytes_setCalls (s : State) (calls : List HostCall) (addr : Word) (bytes : List Byte) :
    (s.setCalls calls).writeBytes addr bytes = (s.writeBytes addr bytes).setCalls calls := by
  induction bytes generalizing s addr with
  | nil => rfl
  | cons v rest ih => exact ih (s.writeByte addr v) (addr + 1)

theorem loadAction_setCalls (bytes : List Byte) (s : State) (calls : List HostCall) :
    loadAction bytes (s.setCalls calls) = (loadAction bytes s).setCalls calls := by
  unfold loadAction
  rw [State.setCalls_params, writeBytes_setCalls, show loadFits bytes (s.setCalls calls) = loadFits bytes s from rfl]
  split <;> rfl

/-- Settles O55: load, then reset, which takes PC from the vector the load wrote, then the start of the run. -/
theorem loadAndRunBoots : Obligations.LoadAndRunBoots := by
  intro s calls hrs
  have hstep : step s = .next (idle s) := step_of_not_running (by simp [hrs])
  refine ⟨fun bytes hwf hcalls hfits => ⟨_, hstep, ?loadAndRun⟩, fun hook hcalls => ?run, fun hcalls => ?none⟩
  case loadAndRun =>
    have hvector := readWord_loadAction_vector hwf hfits
    rw [idle_of_calls_cons hrs hcalls, performCall, if_pos (show loadFits bytes (s.setCalls calls) = true from hfits),
      loadAction_setCalls, resetAction, State.readWord_setCalls, hvector, loadAction_frame]
    rfl
  case run => rw [hstep, idle_of_calls_cons hrs hcalls]; rfl
  case none => rw [hstep, idle, hcalls]

/-! ### The terminal state -/

/-- In Faulted a call changes nothing (R205). -/
theorem hostCall_of_faulted {s : State} {e : FatalError} (call : HostCall) (h : s.rs = .faulted e) :
    hostCall call s = s := by
  simp only [hostCall, h]

/-- In Faulted a step takes the host's next call from the plan and changes nothing else. -/
theorem step_of_faulted {s : State} {e : FatalError} (h : s.rs = .faulted e) :
    step s = .next (s.setCalls (s.calls.drop 1)) := by
  rw [step_of_not_running (by simp [h])]
  refine congrArg _ ?_
  unfold idle
  split
  · next hcalls => rw [hcalls, List.drop_nil, ← hcalls]; rfl
  · next call rest hcalls => rw [hcalls, hostCall_of_faulted call (s := s.setCalls rest) h]; rfl

theorem run_of_faulted {s : State} {e : FatalError} (n : Nat) (h : s.rs = .faulted e) :
    Host.Core.run core n s = .next (s.setCalls (s.calls.drop n)) := by
  induction n generalizing s with
  | zero => rfl
  | succ n ih =>
    have hdrop : (s.calls.drop 1).drop n = s.calls.drop (n + 1) := by rw [List.drop_drop, Nat.add_comm 1 n]
    calc Host.Core.run core (n + 1) s
      _ = Host.Core.run core n (s.setCalls (s.calls.drop 1)) := run_succ_of_step (M := core) n (step_of_faulted h)
      _ = .next (s.setCalls ((s.calls.drop 1).drop n)) := ih h
      _ = .next (s.setCalls (s.calls.drop (n + 1))) := by rw [hdrop]

/-- Settles O57: the run only uses up the plan, and the replies are those of the faulted state. -/
theorem faultedIsFinal : Obligations.FaultedIsFinal := by
  intro s e h
  refine ⟨fun n => run_of_faulted n h, fun call => hostCall_of_faulted call h, fun addr r => ?reads,
    fun call hcall => ?others⟩
  case reads => exact ⟨by simp only [callReply, h]; rfl, by simp only [callReply, h]; rfl, callReply_readReg r s⟩
  case others =>
    cases call with
    | act act => simp only [callReply, h, hcall act rfl, Bool.false_eq_true, if_false]
    | runWithCallback hook => simp only [callReply, h]
    | loadAndRun bytes => simp only [callReply, h]

end Sys2Proof.Machine
